-- ==== Sys2Proof/Word.lean ====
section
/-!
DEFINITION. Sys2Proof/Word.lean: the two word types of the 8085 (00_scope.md rule R4: data and registers are
8 bits, memory addresses 16 bits, both fixed by the source). Every register and memory value is an unsigned
bit vector (00_scope.md rule R6).
-/

namespace Sys2Proof

/-- An 8-bit datum, register, memory byte, or I/O port number (rule R4: `XLEN`, `PLEN`). -/
abbrev Byte := BitVec 8

/-- A 16-bit address or register-pair value (rule R4: `ALEN`). -/
abbrev Word := BitVec 16

end Sys2Proof
end

