-- ==== Sys2Proof/Syntax.lean ====
section
/-!
DEFINITION. Sys2Proof/Syntax.lean: the instructions of the 8085 as terms, one constructor for each of the 95 rows
of spec/opcode_table.json (30_encoding.md rule R104), in the table's order, and the names their operands are made of
(rule R102). A register operand is one of seven names and never M: the M forms are rows of their own.
-/

namespace Sys2Proof

/-- The seven 8-bit general registers (10_state.md rule R20). -/
inductive Reg where
  | b | c | d | e | h | l | a
deriving DecidableEq, Repr

/-- The four register pairs of the 2-bit field `pp` (10_state.md rules R22, R23): BC, DE, HL, SP. Which of them an
instruction accepts is checked in WellFormed (30_encoding.md rule R110). -/
inductive RegPair where
  | bc | de | hl | sp
deriving DecidableEq, Repr

/-- The eight conditions of the 3-bit field `ccc` (30_encoding.md rule R97, 42_branch.md rule R200). -/
inductive Cond where
  | nz | z | nc | c | po | pe | p | m
deriving DecidableEq, Repr

/-- An instruction with its operands. `addr` and `data` operands of type `Word` are bytes 2 and 3 of the
instruction, byte 2 the low-order half (20_memory.md rule R68); operands of type `Byte` are byte 2. -/
inductive Instr where
  | aci (data : Byte)
  | adcR (r : Reg)
  | adcM
  | addR (r : Reg)
  | addM
  | adi (data : Byte)
  | anaR (r : Reg)
  | anaM
  | ani (data : Byte)
  | call (addr : Word)
  | cc (addr : Word)
  | cnc (addr : Word)
  | cp (addr : Word)
  | cm (addr : Word)
  | cpe (addr : Word)
  | cpo (addr : Word)
  | cz (addr : Word)
  | cnz (addr : Word)
  | cma
  | cmc
  | cmpR (r : Reg)
  | cmpM
  | cpi (data : Byte)
  | daa
  | dad (pp : RegPair)
  | dcrR (r : Reg)
  | dcrM
  | dcx (pp : RegPair)
  | di
  | ei
  | hlt
  | inPort (port : Byte)
  | inrR (r : Reg)
  | inrM
  | inx (pp : RegPair)
  | jmp (addr : Word)
  | jc (addr : Word)
  | jnc (addr : Word)
  | jp (addr : Word)
  | jm (addr : Word)
  | jpe (addr : Word)
  | jpo (addr : Word)
  | jz (addr : Word)
  | jnz (addr : Word)
  | lda (addr : Word)
  | ldax (pp : RegPair)
  | lhld (addr : Word)
  | lxi (pp : RegPair) (data : Word)
  | movRR (rd rs : Reg)
  | movMR (rs : Reg)
  | movRM (rd : Reg)
  | mviR (r : Reg) (data : Byte)
  | mviM (data : Byte)
  | nop
  | oraR (r : Reg)
  | oraM
  | ori (data : Byte)
  | outPort (port : Byte)
  | pchl
  | popRp (pp : RegPair)
  | popPsw
  | pushRp (pp : RegPair)
  | pushPsw
  | ral
  | rar
  | rlc
  | rrc
  | ret
  | rc
  | rnc
  | rp
  | rm
  | rpe
  | rpo
  | rz
  | rnz
  | rim
  | rst (n : BitVec 3)
  | sbbR (r : Reg)
  | sbbM
  | sbi (data : Byte)
  | shld (addr : Word)
  | sim
  | sphl
  | sta (addr : Word)
  | stax (pp : RegPair)
  | stc
  | subR (r : Reg)
  | subM
  | sui (data : Byte)
  | xchg
  | xraR (r : Reg)
  | xraM
  | xri (data : Byte)
  | xthl
deriving DecidableEq, Repr

end Sys2Proof
end

