-- ==== Sys2Proof/WellFormed.lean ====
section
/-!
DEFINITION. Sys2Proof/WellFormed.lean: which instruction terms the machine has. Every operand but a register pair
is well formed by its type; the pairs an instruction accepts are fixed by 30_encoding.md rule R110: "LXI, INX, DCX,
DAD: B D H SP; PUSH, POP: B D H PSW; LDAX, STAX: B D only". (PUSH PSW and POP PSW are constructors of their own.)
-/

namespace Sys2Proof

/-- The pairs PUSH and POP accept beside PSW (rule R110): there is no PUSH SP and no POP SP
(45_stack.md rule R312). -/
def RegPair.isStackPair : RegPair → Bool
  | .bc => true
  | .de => true
  | .hl => true
  | .sp => false

/-- The pairs LDAX and STAX accept (rule R110, 90_conflicts.md C9): BC and DE. -/
def RegPair.isIndirectPair : RegPair → Bool
  | .bc => true
  | .de => true
  | .hl => false
  | .sp => false

/-- The check: the term is an instruction of the machine, that is, some opcode byte stands for it. -/
def Instr.wellFormed : Instr → Bool
  | .popRp pp => pp.isStackPair
  | .pushRp pp => pp.isStackPair
  | .ldax pp => pp.isIndirectPair
  | .stax pp => pp.isIndirectPair
  | _ => true

end Sys2Proof
end

