-- ==== Sys2Proof/Decode.lean ====
section
/-!
DEFINITION. Sys2Proof/Decode.lean: decoding (30_encoding.md rules R90 to R107), total on any bytes and rejecting by
name, and after it the encoder, written from the same tables. Decoding depends on nothing but the bytes
(rule R106); the opcode byte alone fixes the instruction and its length (rule R90).
-/

namespace Sys2Proof

/-! ## Bytes and words -/

/-- `hi ++ lo`: the 16-bit value with `hi` in bits 15:8 and `lo` in bits 7:0 (00_scope.md rule R5). -/
def wordOf (hi lo : Byte) : Word := hi ++ lo

/-- Bits 15:8 of a word. -/
def hiByte (w : Word) : Byte := w.extractLsb' 8 8

/-- Bits 7:0 of a word. -/
def loByte (w : Word) : Byte := w.extractLsb' 0 8

/-! ## Field codes -/

/-- The 3-bit register code (10_state.md rule R21, 30_encoding.md rule R95). -/
def Reg.code : Reg → BitVec 3
  | .b => 0b000#3
  | .c => 0b001#3
  | .d => 0b010#3
  | .e => 0b011#3
  | .h => 0b100#3
  | .l => 0b101#3
  | .a => 0b111#3

/-- The register a 3-bit code names; code 110 names no register but the operand M (rule R21). -/
def Reg.ofCode (x : BitVec 3) : Option Reg :=
  match x.toNat with
  | 0 => some .b
  | 1 => some .c
  | 2 => some .d
  | 3 => some .e
  | 4 => some .h
  | 5 => some .l
  | 6 => none
  | _ => some .a

/-- The 2-bit register-pair code `pp` (10_state.md rule R23, 30_encoding.md rule R96). -/
def RegPair.code : RegPair → BitVec 2
  | .bc => 0b00#2
  | .de => 0b01#2
  | .hl => 0b10#2
  | .sp => 0b11#2

/-- The pair a 2-bit code names. -/
def RegPair.ofCode (x : BitVec 2) : RegPair :=
  match x.toNat with
  | 0 => .bc
  | 1 => .de
  | 2 => .hl
  | _ => .sp

/-! ## Decoding -/

/-- What an opcode byte alone fixes: the instruction up to its operand bytes, in the three formats of rules R91
(F1, one byte), R92 (F2, an 8-bit datum or port follows) and R94 (F3, a 16-bit datum or address follows). -/
inductive Template where
  | f1 (i : Instr)
  | f2 (i : Byte → Instr)
  | f3 (i : Word → Instr)

/-- How many bytes an instruction of the format has (rules R91, R92, R94). -/
def Template.length : Template → Nat
  | .f1 _ => 1
  | .f2 _ => 2
  | .f3 _ => 3

/-- Quadrant `00` of the opcode byte (rule R99), by bits 5:3 (`y`) and 2:0 (`z`); the rows 0 to 3 of the map of
rule R103. -/
def decodeMisc (y z : BitVec 3) : Option Template :=
  let pp := RegPair.ofCode (y.extractLsb' 1 2)
  match z.toNat with
  | 0 =>
    match y.toNat with
    | 0 => some (.f1 .nop)
    | 4 => some (.f1 .rim)
    | 6 => some (.f1 .sim)
    | _ => none
  | 1 => if y.getLsbD 0 then some (.f1 (.dad pp)) else some (.f3 (.lxi pp))
  | 2 =>
    match y.toNat with
    | 0 => some (.f1 (.stax .bc))
    | 1 => some (.f1 (.ldax .bc))
    | 2 => some (.f1 (.stax .de))
    | 3 => some (.f1 (.ldax .de))
    | 4 => some (.f3 .shld)
    | 5 => some (.f3 .lhld)
    | 6 => some (.f3 .sta)
    | _ => some (.f3 .lda)
  | 3 => if y.getLsbD 0 then some (.f1 (.dcx pp)) else some (.f1 (.inx pp))
  | 4 =>
    match Reg.ofCode y with
    | some r => some (.f1 (.inrR r))
    | none => some (.f1 .inrM)
  | 5 =>
    match Reg.ofCode y with
    | some r => some (.f1 (.dcrR r))
    | none => some (.f1 .dcrM)
  | 6 =>
    match Reg.ofCode y with
    | some r => some (.f2 (.mviR r))
    | none => some (.f2 .mviM)
  | _ =>
    match y.toNat with
    | 0 => some (.f1 .rlc)
    | 1 => some (.f1 .rrc)
    | 2 => some (.f1 .ral)
    | 3 => some (.f1 .rar)
    | 4 => some (.f1 .daa)
    | 5 => some (.f1 .cma)
    | 6 => some (.f1 .stc)
    | _ => some (.f1 .cmc)

/-- Quadrant `01` (rule R99): `01 ddd sss`, with `01 110 110` = 76 being HLT. -/
def decodeMove (y z : BitVec 3) : Option Template :=
  match Reg.ofCode y, Reg.ofCode z with
  | some rd, some rs => some (.f1 (.movRR rd rs))
  | some rd, none => some (.f1 (.movRM rd))
  | none, some rs => some (.f1 (.movMR rs))
  | none, none => some (.f1 .hlt)

/-- Quadrant `10` (rule R99): `10 ooo sss`, the register and M forms of the eight ALU operations. -/
def decodeAlu (y z : BitVec 3) : Option Template :=
  match Reg.ofCode z with
  | some r =>
    match y.toNat with
    | 0 => some (.f1 (.addR r))
    | 1 => some (.f1 (.adcR r))
    | 2 => some (.f1 (.subR r))
    | 3 => some (.f1 (.sbbR r))
    | 4 => some (.f1 (.anaR r))
    | 5 => some (.f1 (.xraR r))
    | 6 => some (.f1 (.oraR r))
    | _ => some (.f1 (.cmpR r))
  | none =>
    match y.toNat with
    | 0 => some (.f1 .addM)
    | 1 => some (.f1 .adcM)
    | 2 => some (.f1 .subM)
    | 3 => some (.f1 .sbbM)
    | 4 => some (.f1 .anaM)
    | 5 => some (.f1 .xraM)
    | 6 => some (.f1 .oraM)
    | _ => some (.f1 .cmpM)

/-- Quadrant `11` (rule R99): branches (conditions of rule R97, restarts of rule R98), stack, immediate ALU, I/O and
control; the rows C to F of the map of rule R103. -/
def decodeBranch (y z : BitVec 3) : Option Template :=
  match z.toNat with
  | 0 =>
    match y.toNat with
    | 0 => some (.f1 .rnz)
    | 1 => some (.f1 .rz)
    | 2 => some (.f1 .rnc)
    | 3 => some (.f1 .rc)
    | 4 => some (.f1 .rpo)
    | 5 => some (.f1 .rpe)
    | 6 => some (.f1 .rp)
    | _ => some (.f1 .rm)
  | 1 =>
    match y.toNat with
    | 0 => some (.f1 (.popRp .bc))
    | 1 => some (.f1 .ret)
    | 2 => some (.f1 (.popRp .de))
    | 3 => none
    | 4 => some (.f1 (.popRp .hl))
    | 5 => some (.f1 .pchl)
    | 6 => some (.f1 .popPsw)
    | _ => some (.f1 .sphl)
  | 2 =>
    match y.toNat with
    | 0 => some (.f3 .jnz)
    | 1 => some (.f3 .jz)
    | 2 => some (.f3 .jnc)
    | 3 => some (.f3 .jc)
    | 4 => some (.f3 .jpo)
    | 5 => some (.f3 .jpe)
    | 6 => some (.f3 .jp)
    | _ => some (.f3 .jm)
  | 3 =>
    match y.toNat with
    | 0 => some (.f3 .jmp)
    | 1 => none
    | 2 => some (.f2 .outPort)
    | 3 => some (.f2 .inPort)
    | 4 => some (.f1 .xthl)
    | 5 => some (.f1 .xchg)
    | 6 => some (.f1 .di)
    | _ => some (.f1 .ei)
  | 4 =>
    match y.toNat with
    | 0 => some (.f3 .cnz)
    | 1 => some (.f3 .cz)
    | 2 => some (.f3 .cnc)
    | 3 => some (.f3 .cc)
    | 4 => some (.f3 .cpo)
    | 5 => some (.f3 .cpe)
    | 6 => some (.f3 .cp)
    | _ => some (.f3 .cm)
  | 5 =>
    match y.toNat with
    | 0 => some (.f1 (.pushRp .bc))
    | 1 => some (.f3 .call)
    | 2 => some (.f1 (.pushRp .de))
    | 4 => some (.f1 (.pushRp .hl))
    | 6 => some (.f1 .pushPsw)
    | _ => none
  | 6 =>
    match y.toNat with
    | 0 => some (.f2 .adi)
    | 1 => some (.f2 .aci)
    | 2 => some (.f2 .sui)
    | 3 => some (.f2 .sbi)
    | 4 => some (.f2 .ani)
    | 5 => some (.f2 .xri)
    | 6 => some (.f2 .ori)
    | _ => some (.f2 .cpi)
  | _ => some (.f1 (.rst y))

/-- The instruction an opcode byte selects, up to its operand bytes (rules R99, R103, R106); `none` for the ten
unassigned bytes 08 10 18 28 38 CB D9 DD ED FD (rule R107). -/
def decodeOpcode (op : Byte) : Option Template :=
  let y := op.extractLsb' 3 3
  let z := op.extractLsb' 0 3
  match (op.extractLsb' 6 2).toNat with
  | 0 => decodeMisc y z
  | 1 => decodeMove y z
  | 2 => decodeAlu y z
  | _ => decodeBranch y z

/-- Why bytes are no instruction. -/
inductive DecodeError where
  /-- The first byte is one of the ten opcode values no instruction has (rule R107). -/
  | unassignedOpcode (op : Byte)
  /-- There are fewer bytes than the opcode's format needs. A fetch never meets this: memory has a byte at every
  address (20_memory.md rule R60). -/
  | truncated
deriving DecidableEq, Repr

/-- The instruction at the head of a list of bytes, and the bytes after it (rules R100 to R102, R106). -/
def decode : List Byte → Except DecodeError (Instr × List Byte)
  | [] => .error .truncated
  | op :: rest =>
    match decodeOpcode op with
    | none => .error (.unassignedOpcode op)
    | some (.f1 i) => .ok (i, rest)
    | some (.f2 i) =>
      match rest with
      | data :: rest' => .ok (i data, rest')
      | [] => .error .truncated
    | some (.f3 i) =>
      match rest with
      | lo :: hi :: rest' => .ok (i (wordOf hi lo), rest')
      | _ => .error .truncated

/-! ## Encoding -/

/-- The three bytes of an F3 instruction: opcode, low-order byte, high-order byte (rule R94). -/
def encodeF3 (op : Byte) (w : Word) : List Byte := [op, loByte w, hiByte w]

/-- The bytes of an instruction, from the patterns in the `Encoding` lines of its rule; for a term that is not
well formed, the bytes the pattern gives, which are another instruction's. -/
def encode : Instr → List Byte
  | .aci data => [0xCE#8, data]
  | .adcR r => [0b10001#5 ++ r.code]
  | .adcM => [0x8E#8]
  | .addR r => [0b10000#5 ++ r.code]
  | .addM => [0x86#8]
  | .adi data => [0xC6#8, data]
  | .anaR r => [0b10100#5 ++ r.code]
  | .anaM => [0xA6#8]
  | .ani data => [0xE6#8, data]
  | .call addr => encodeF3 0xCD#8 addr
  | .cc addr => encodeF3 0xDC#8 addr
  | .cnc addr => encodeF3 0xD4#8 addr
  | .cp addr => encodeF3 0xF4#8 addr
  | .cm addr => encodeF3 0xFC#8 addr
  | .cpe addr => encodeF3 0xEC#8 addr
  | .cpo addr => encodeF3 0xE4#8 addr
  | .cz addr => encodeF3 0xCC#8 addr
  | .cnz addr => encodeF3 0xC4#8 addr
  | .cma => [0x2F#8]
  | .cmc => [0x3F#8]
  | .cmpR r => [0b10111#5 ++ r.code]
  | .cmpM => [0xBE#8]
  | .cpi data => [0xFE#8, data]
  | .daa => [0x27#8]
  | .dad pp => [0b00#2 ++ pp.code ++ 0b1001#4]
  | .dcrR r => [0b00#2 ++ r.code ++ 0b101#3]
  | .dcrM => [0x35#8]
  | .dcx pp => [0b00#2 ++ pp.code ++ 0b1011#4]
  | .di => [0xF3#8]
  | .ei => [0xFB#8]
  | .hlt => [0x76#8]
  | .inPort port => [0xDB#8, port]
  | .inrR r => [0b00#2 ++ r.code ++ 0b100#3]
  | .inrM => [0x34#8]
  | .inx pp => [0b00#2 ++ pp.code ++ 0b0011#4]
  | .jmp addr => encodeF3 0xC3#8 addr
  | .jc addr => encodeF3 0xDA#8 addr
  | .jnc addr => encodeF3 0xD2#8 addr
  | .jp addr => encodeF3 0xF2#8 addr
  | .jm addr => encodeF3 0xFA#8 addr
  | .jpe addr => encodeF3 0xEA#8 addr
  | .jpo addr => encodeF3 0xE2#8 addr
  | .jz addr => encodeF3 0xCA#8 addr
  | .jnz addr => encodeF3 0xC2#8 addr
  | .lda addr => encodeF3 0x3A#8 addr
  | .ldax pp => [0b00#2 ++ pp.code ++ 0b1010#4]
  | .lhld addr => encodeF3 0x2A#8 addr
  | .lxi pp data => encodeF3 (0b00#2 ++ pp.code ++ 0b0001#4) data
  | .movRR rd rs => [0b01#2 ++ rd.code ++ rs.code]
  | .movMR rs => [0b01110#5 ++ rs.code]
  | .movRM rd => [0b01#2 ++ rd.code ++ 0b110#3]
  | .mviR r data => [0b00#2 ++ r.code ++ 0b110#3, data]
  | .mviM data => [0x36#8, data]
  | .nop => [0x00#8]
  | .oraR r => [0b10110#5 ++ r.code]
  | .oraM => [0xB6#8]
  | .ori data => [0xF6#8, data]
  | .outPort port => [0xD3#8, port]
  | .pchl => [0xE9#8]
  | .popRp pp => [0b11#2 ++ pp.code ++ 0b0001#4]
  | .popPsw => [0xF1#8]
  | .pushRp pp => [0b11#2 ++ pp.code ++ 0b0101#4]
  | .pushPsw => [0xF5#8]
  | .ral => [0x17#8]
  | .rar => [0x1F#8]
  | .rlc => [0x07#8]
  | .rrc => [0x0F#8]
  | .ret => [0xC9#8]
  | .rc => [0xD8#8]
  | .rnc => [0xD0#8]
  | .rp => [0xF0#8]
  | .rm => [0xF8#8]
  | .rpe => [0xE8#8]
  | .rpo => [0xE0#8]
  | .rz => [0xC8#8]
  | .rnz => [0xC0#8]
  | .rim => [0x20#8]
  | .rst n => [0b11#2 ++ n ++ 0b111#3]
  | .sbbR r => [0b10011#5 ++ r.code]
  | .sbbM => [0x9E#8]
  | .sbi data => [0xDE#8, data]
  | .shld addr => encodeF3 0x22#8 addr
  | .sim => [0x30#8]
  | .sphl => [0xF9#8]
  | .sta addr => encodeF3 0x32#8 addr
  | .stax pp => [0b00#2 ++ pp.code ++ 0b0010#4]
  | .stc => [0x37#8]
  | .subR r => [0b10010#5 ++ r.code]
  | .subM => [0x96#8]
  | .sui data => [0xD6#8, data]
  | .xchg => [0xEB#8]
  | .xraR r => [0b10101#5 ++ r.code]
  | .xraM => [0xAE#8]
  | .xri data => [0xEE#8, data]
  | .xthl => [0xE3#8]

/-! ## The opcode table's numbering -/

/-- The three bytes of an instruction given as a number: the first byte in bits 7:0, the second in bits 15:8, the
third in bits 23:16, with every bit at or above `nbits` zero. -/
def tableBytes (nbits w : Nat) : List Byte :=
  let v := w % 2 ^ nbits
  [BitVec.ofNat 8 v, BitVec.ofNat 8 (v / 256), BitVec.ofNat 8 (v / 65536)]

/-- The instruction the decoder reads from an instruction whose bits are `w`, numbered as spec/opcode_table.json
numbers them. -/
def decodeTableWord (nbits w : Nat) : Option Instr :=
  match decode (tableBytes nbits w) with
  | .ok (i, _) => some i
  | .error _ => none

end Sys2Proof
end

