-- ==== Sys2Proof/Machine/State.lean ====
section
/-!
DEFINITION. Sys2Proof/Machine/State.lean: the state of the machine (10_state.md rule R47), the inputs the environment
presents (00_scope.md rules R4, R13; 60_exceptions.md rule R334), the reasons a step stops, and the state after reset
(70_reset_and_hazards.md rule R380). Plain data throughout.
-/

namespace Sys2Proof.Machine

/-- The seven general registers (rule R20). -/
structure Regs where
  b : Byte
  c : Byte
  d : Byte
  e : Byte
  h : Byte
  l : Byte
  a : Byte
deriving DecidableEq, Repr

/-- The five flags (rules R30 to R35): sign, zero, auxiliary carry, parity, carry. -/
structure Flags where
  s : Bool
  z : Bool
  ac : Bool
  p : Bool
  cy : Bool
deriving DecidableEq, Repr

/-- The system and control state (rules R38 to R45). -/
structure Control where
  /-- `IE`, the Interrupt Enable flip-flop (rule R38). -/
  ie : Bool
  /-- `M75`, the RST 7.5 mask; 1 masks the interrupt (rule R39). -/
  m75 : Bool
  /-- `M65`, the RST 6.5 mask (rule R39). -/
  m65 : Bool
  /-- `M55`, the RST 5.5 mask (rule R39). -/
  m55 : Bool
  /-- `R75`, the RST 7.5 request latch (rule R40). -/
  r75 : Bool
  /-- `SOD`, the serial output data latch (rule R41). -/
  sod : Bool
  /-- `halted`, the halt state (rule R43). -/
  halted : Bool
  /-- `ei_delay` (rule R44). -/
  eiDelay : Bool
  /-- `trap_ie.valid` (rule R45). -/
  trapIeValid : Bool
  /-- `trap_ie.value` (rule R45). -/
  trapIeValue : Bool
deriving DecidableEq, Repr

/-- What is behind an address (20_memory.md rule R63): read-write memory, read-only memory, or nothing. -/
inductive RegionKind where
  | readWrite | readOnly | empty
deriving DecidableEq, Repr

/-- A range of addresses, both ends included, and what is behind them (the parameter `MemMap`, rule R4). -/
structure Region where
  first : Word
  last : Word
  kind : RegionKind
deriving DecidableEq, Repr

/-- Memory contents: the (address, byte) pairs that differ from what an unlisted address reads as, addresses
strictly rising (`Memory.wf`). -/
abbrev Memory := List Host.Cell

/-- `IntLines`, the interrupt inputs at one boundary (60_exceptions.md rule R334). -/
structure IntLines where
  trap : Bool
  r75Edge : Bool
  r65 : Bool
  r55 : Bool
  intr : Bool
deriving DecidableEq, Repr

/-- Everything the environment supplies to one step (60_exceptions.md rule R330). -/
structure StepInput where
  /-- `ResetIn` (rule R4). -/
  resetIn : Bool
  /-- `IntLines` (rule R334). -/
  lines : IntLines
  /-- `IntrInstruction`: the bytes the device supplies if INTR is acknowledged in this step (rule R341). -/
  intrBytes : List Byte
  /-- `SID`: the serial input level in this step; `none` where nothing is known of it (rule R256). -/
  sid : Option Bool
  /-- `IORead`: the byte the environment presents to an IN of this step; `none` where nothing is known of it
  (rule R253). -/
  ioRead : Option Byte
deriving DecidableEq, Repr

/-- The inputs of a step in which the environment presents nothing: no reset, every line 0, nothing known of the
serial line and the ports. -/
def StepInput.quiet : StepInput :=
  { resetIn := false
    lines := { trap := false, r75Edge := false, r65 := false, r55 := false, intr := false }
    intrBytes := []
    sid := none
    ioRead := none }

/-- An event of the I/O space (20_memory.md rule R73). -/
inductive IoEvent where
  /-- `IORead(port)` and the byte it returned. -/
  | read (port value : Byte)
  /-- `IOWrite(port, value)`. -/
  | write (port value : Byte)
deriving DecidableEq, Repr

/-- The five interrupt sources (60_exceptions.md rule R333). -/
inductive Source where
  | trap | rst75 | rst65 | rst55 | intr
deriving DecidableEq, Repr

/-- The whole state (rule R47), the parameter `MemMap`, the environment's inputs, the trace of I/O events, and
the model's own fields `now` and `tick`. -/
structure State where
  /-- A, B, C, D, E, H, L (rule R20). -/
  regs : Regs
  /-- S, Z, AC, P, CY (rule R30). -/
  flags : Flags
  /-- The stack pointer (rule R25). -/
  sp : Word
  /-- The program counter: between instructions, the address of the next instruction's first byte (rule R27). -/
  pc : Word
  /-- IE, the masks, the latches, the halt state and the hidden bits (rules R38 to R45). -/
  ctl : Control
  /-- Memory contents (20_memory.md rule R60). -/
  mem : Memory
  /-- `MemMap` (20_memory.md rule R63): the first region that holds an address says what is behind it; an address in
  no region is read-write memory. No step changes it. Log 4. -/
  memMap : List Region
  /-- The environment's inputs at the coming boundaries, the next one first; after the last, the environment
  presents nothing more. Log 5. -/
  inputs : List StepInput
  /-- The inputs of the step being executed (rule R334: what RIM reads "during the step in which it executes"). The
  model's own. Log 5. -/
  now : StepInput
  /-- How many boundaries have passed: the index the free values of a step are drawn at. The model's own. Log 6. -/
  tick : Nat
  /-- The I/O events so far, in program order (20_memory.md rule R73). -/
  trace : List IoEvent
deriving DecidableEq, Repr

/-- The reasons for a fault. There are none: "The machine raises no synchronous exception"
(60_exceptions.md rule R331), and no memory access faults (20_memory.md rule R63). -/
inductive Fault where
deriving DecidableEq, Repr

/-- The reasons for a refusal: a situation the spec gives no meaning (00_scope.md rule R9). -/
inductive Refusal where
  /-- Raised by `exec` for an instruction with no meaning yet; no arm of `exec` raises it. Safe. -/
  | notModelled (mnemonic : String)
  /-- Raised by `step` when the opcode byte fetched is one of the ten no instruction has (30_encoding.md rule R107,
  `refuse UnassignedOpcode(op)`). Safe: real parts go on. -/
  | unassignedOpcode (op : Byte)
  /-- Raised by `step` when INTR is acknowledged and the device supplies anything but RST n or CALL addr
  (60_exceptions.md rule R341, `refuse IntrInstructionNotModelled`). Safe: real parts go on. -/
  | intrInstructionNotModelled
deriving DecidableEq, Repr

/-- The machine right after reset (10_state.md rule R47, 70_reset_and_hazards.md rule R380). The registers, flags,
SP and `trap_ie.value`, which reset leaves unspecified, are zero here (log 1); nothing is listed in memory (log 3);
all of memory is read-write (log 4); the environment presents nothing (log 5). -/
def State.reset : State :=
  { regs := { b := 0, c := 0, d := 0, e := 0, h := 0, l := 0, a := 0 }
    flags := { s := false, z := false, ac := false, p := false, cy := false }
    sp := 0
    pc := 0x0000#16
    ctl :=
      { ie := false
        m75 := true
        m65 := true
        m55 := true
        r75 := false
        sod := false
        halted := false
        eiDelay := false
        trapIeValid := false
        trapIeValue := false }
    mem := []
    memMap := []
    inputs := []
    now := StepInput.quiet
    tick := 0
    trace := [] }

end Sys2Proof.Machine
end

