-- ==== Sys2Proof/Machine/Flags.lean ====
section
/-!
DEFINITION. Sys2Proof/Machine/Flags.lean: every flag computation of the spec: `setSZP` (00_scope.md rule R10), `add8` and
`sub8` (rule R11), the 16-bit carry of DAD (40_arithmetic.md rule R128), the decimal adjustment (rule R127), the
flag byte (10_state.md rule R36), the conditions (42_branch.md rule R200).
-/

namespace Sys2Proof.Machine

/-! ## S, Z, P -/

/-- `sign(r)`: bit 7 (rules R10, R31). -/
def sign (r : Byte) : Bool := r.getLsbD 7

/-- `zero(r)`: 1 when all eight bits are 0 (rules R10, R32). -/
def zero (r : Byte) : Bool := decide (r = 0x00#8)

/-- How many bits of a byte are 1. -/
def onesCount (r : Byte) : Nat := (List.range 8).countP (fun i => r.getLsbD i)

/-- `parity(r)`: 1 when the number of 1 bits is even (rules R10, R34). -/
def parity (r : Byte) : Bool := decide (onesCount r % 2 = 0)

/-- `setSZP(r)` (rule R10). -/
def Flags.setSZP (f : Flags) (r : Byte) : Flags :=
  { f with s := sign r, z := zero r, p := parity r }

/-! ## 8-bit addition and subtraction -/

/-- What `add8` and `sub8` return: the result byte, the carry or borrow, the auxiliary carry. -/
structure AluResult where
  r : Byte
  cy : Bool
  ac : Bool
deriving DecidableEq, Repr

/-- Bits 3:0 of a byte, as a number. -/
def lowNibble (v : Byte) : Nat := v.toNat % 16

/-- Bits 7:4 of a byte, as a number. -/
def highNibble (v : Byte) : Nat := v.toNat / 16

/-- `add8(a, b, c)` (rule R11). -/
def add8 (a b : Byte) (c : Bool) : AluResult :=
  let t := a.toNat + b.toNat + c.toNat
  { r := BitVec.ofNat 8 t
    cy := decide (t > 255)
    ac := decide (lowNibble a + lowNibble b + c.toNat > 15) }

/-- `sub8(a, b, c)` (rule R11): `cy` is the borrow; `ac` is the carry out of bit 3 of `a + ~b + (1 - c)`
(decision D7). Log 10. -/
def sub8 (a b : Byte) (c : Bool) : AluResult :=
  let t : Int := (a.toNat : Int) - (b.toNat : Int) - (c.toNat : Int)
  { r := BitVec.ofInt 8 t
    cy := decide (t < 0)
    ac := decide (lowNibble a + lowNibble (~~~b) + (1 - c.toNat) > 15) }

/-- All five flags written from a sum or difference (40_arithmetic.md rule R121). -/
def AluResult.flags (x : AluResult) : Flags :=
  { s := sign x.r, z := zero x.r, ac := x.ac, p := parity x.r, cy := x.cy }

/-- S, Z, AC and P written, CY unchanged: INR and DCR (rules R129, R132). -/
def AluResult.flagsKeepCarry (x : AluResult) (f : Flags) : Flags :=
  { x.flags with cy := f.cy }

/-- The flags of a bitwise operation: S, Z, P from the result, CY reset, AC forced (41_logical.md rule R160). -/
def logicFlags (r : Byte) (ac : Bool) : Flags :=
  { s := sign r, z := zero r, ac := ac, p := parity r, cy := false }

/-! ## Decimal adjustment -/

/-- The correction DAA adds, and the carry it leaves (rule R127, decision D9). Log 12. -/
def daaCorrection (a : Byte) (ac cy : Bool) : Byte × Bool :=
  let lo := lowNibble a
  let hi := highNibble a
  let low : Byte := if lo > 9 ∨ ac = true then 0x06#8 else 0x00#8
  if hi > 9 ∨ cy = true ∨ (hi ≥ 9 ∧ lo > 9) then (low + 0x60#8, true) else (low, cy)

/-! ## The flag byte -/

/-- `flagByte()`: S Z u5 AC u3 P u1 CY (rule R36); `u` holds u5, u3, u1 in bits 2, 1, 0. Log 18. -/
def Flags.toByte (f : Flags) (u : BitVec 3) : Byte :=
  BitVec.ofBool f.s ++ BitVec.ofBool f.z ++ BitVec.ofBool (u.getLsbD 2) ++ BitVec.ofBool f.ac
    ++ BitVec.ofBool (u.getLsbD 1) ++ BitVec.ofBool f.p ++ BitVec.ofBool (u.getLsbD 0) ++ BitVec.ofBool f.cy

/-- `setFlagByte(v)`: bits 5, 3 and 1 are ignored (rule R36). -/
def Flags.ofByte (v : Byte) : Flags :=
  { s := v.getLsbD 7, z := v.getLsbD 6, ac := v.getLsbD 4, p := v.getLsbD 2, cy := v.getLsbD 0 }

/-! ## Conditions -/

/-- `cond(ccc)` (rule R200). AC is tested by no instruction. -/
def Flags.holds (f : Flags) : Cond → Bool
  | .nz => !f.z
  | .z => f.z
  | .nc => !f.cy
  | .c => f.cy
  | .po => !f.p
  | .pe => f.p
  | .p => !f.s
  | .m => f.s

end Sys2Proof.Machine
end

