-- ==== Sys2Proof/Config.lean ====
section
/-!
DEFINITION. Sys2Proof/Config.lean: the free values (00_scope.md rule R9, `draw(n)`: "an n-bit value chosen by
the environment, under no law, fresh at each use"). Each is an opaque constant with no body, so nothing can be
proved of its value. Each takes the step's index (`State.tick`) and, where one step can draw several, what
tells the draws of that step apart, so that no two draws of a run are the same term (notes/assumptions/6.md).
-/

namespace Sys2Proof

/-- Bits `u5`, `u3`, `u1` (in bits 2, 1, 0) of the flag byte that PUSH PSW stores in step `tick`
(10_state.md rule R36: "three fresh one-bit draws at each PUSH PSW"). Log 8. -/
opaque Config.unusedFlagBits (tick : Nat) : BitVec 3

/-- The byte an IN of `port` reads in step `tick` where the input record states none (43_machine_control_io.md
rule R253: "The value is a `draw(8)` unless the model is given an `IORead` function"). Log 7. -/
opaque Config.ioRead (tick : Nat) (port : Byte) : Byte

/-- The level RIM reads from the serial input line in step `tick` where the input record states none
(43_machine_control_io.md rule R256; 93_implementation_defined.md U12). Log 7. -/
opaque Config.sid (tick : Nat) : Bool

/-- The byte an instruction fetch of step `tick` reads at an address with nothing behind it
(20_memory.md rule R63: "returns `draw(8)`"). Log 4. -/
opaque Config.emptyFetch (tick : Nat) (addr : Word) : Byte

/-- The byte a data read of step `tick` reads at an address with nothing behind it (20_memory.md rule R63).
Log 4. -/
opaque Config.emptyRead (tick : Nat) (addr : Word) : Byte

/-- What the register with 3-bit code `code` holds after the reset of step `tick`
(70_reset_and_hazards.md rule R381: "have no defined value after reset"). Log 2. -/
opaque Config.resetRegister (tick : Nat) (code : BitVec 3) : Byte

/-- What the five flags hold after the reset of step `tick`, as a flag byte (rule R381). Log 2. -/
opaque Config.resetFlagByte (tick : Nat) : Byte

/-- What SP holds after the reset of step `tick` (rule R381). Log 2. -/
opaque Config.resetSp (tick : Nat) : Word

/-- What `trap_ie.value` holds after the reset of step `tick` (rule R381). Log 2. -/
opaque Config.resetTrapIe (tick : Nat) : Bool

end Sys2Proof
end

