-- ==== Sys2Proof/Machine/Memory.lean ====
section
/-!
DEFINITION. Sys2Proof/Machine/Memory.lean: memory contents as a canonical list, what is behind an address
(20_memory.md rule R63), and `MemRead(addr, 1)` and `MemWrite(addr, 1, v)` (00_scope.md rule R8) over the state. Every
wider access is a sequence of these (20_memory.md rule R70).
-/

namespace Sys2Proof.Machine

/-! ## Contents -/

/-- What an address no pair lists reads as. DESIGN CHOICE: the spec leaves `InitMem` open (rule R63); 00H. Log 3. -/
def Memory.unlisted : Byte := 0x00#8

/-- The byte at an address. -/
def Memory.read : Memory → Nat → Byte
  | [], _ => Memory.unlisted
  | (k, w) :: rest, a =>
    if a < k then Memory.unlisted
    else if a = k then w
    else Memory.read rest a

/-- Memory with the byte at `a` set to `v`, in canonical form again: writing what an unlisted address reads as removes
the pair. (`dropWhile` drops nothing from a memory in canonical form; it makes the two read-after-write laws hold
of every list.) -/
def Memory.write : Memory → Nat → Byte → Memory
  | [], a, v => if v = Memory.unlisted then [] else [(a, v)]
  | (k, w) :: rest, a, v =>
    if a < k then
      if v = Memory.unlisted then (k, w) :: rest else (a, v) :: (k, w) :: rest
    else if a = k then
      if v = Memory.unlisted then rest.dropWhile (fun cell => cell.1 ≤ a) else (a, v) :: rest
    else (k, w) :: Memory.write rest a v

/-- The canonical form from address `lo` on: addresses strictly rising, all of them addresses of the 64 KiB
space (rule R60), no pair equal to what an unlisted address reads as. -/
def Memory.wfFrom : Nat → Memory → Bool
  | _, [] => true
  | lo, (k, w) :: rest =>
    decide (lo ≤ k) && decide (k < 65536) && decide (w ≠ Memory.unlisted) && Memory.wfFrom (k + 1) rest

/-- The canonical form. -/
def Memory.wf (m : Memory) : Bool := Memory.wfFrom 0 m

/-! ## What is behind an address -/

/-- Whether a region holds an address. -/
def Region.holds (g : Region) (a : Word) : Bool := decide (g.first ≤ a) && decide (a ≤ g.last)

/-- What is behind an address: the first region that holds it says; an address in no region is read-write memory, the
default of rule R63. -/
def kindAt (map : List Region) (a : Word) : RegionKind :=
  match map.find? (fun g => g.holds a) with
  | some g => g.kind
  | none => .readWrite

/-! ## Accesses -/

/-- `MemRead(a, 1)` of a data access. Where nothing is, a draw (rule R63); within one instruction no two data reads have
one address, so the address and the step tell the draws apart. -/
def State.memRead (s : State) (a : Word) : Byte :=
  match kindAt s.memMap a with
  | .empty => Config.emptyRead s.tick a
  | _ => s.mem.read a.toNat

/-- `MemRead(a, 1)` of an instruction fetch. -/
def State.fetchRead (s : State) (a : Word) : Byte :=
  match kindAt s.memMap a with
  | .empty => Config.emptyFetch s.tick a
  | _ => s.mem.read a.toNat

/-- Memory contents after `MemWrite(a, 1, v)`: only read-write memory takes the byte; elsewhere the write changes
nothing (rules R63, R332). -/
def State.memAfterWrite (s : State) (a : Word) (v : Byte) : Memory :=
  match kindAt s.memMap a with
  | .readWrite => s.mem.write a.toNat v
  | _ => s.mem

/-- `MemWrite(a, 1, v)`. -/
def State.memWrite (s : State) (a : Word) (v : Byte) : State :=
  { s with mem := s.memAfterWrite a v }

end Sys2Proof.Machine
end

