-- ==== Sys2Proof/Machine/Operands.lean ====
section
/-!
DEFINITION. Sys2Proof/Machine/Operands.lean: every operand form (30_encoding.md rule R102, 44_data_transfer.md rule R280):
register, register pair, M through HL, indirect through a pair. Direct addresses, immediates and ports are in the
instruction term; stack operands are in Ops.
-/

namespace Sys2Proof.Machine

/-- `x[i]` (00_scope.md rule R7). -/
def Regs.get (g : Regs) : Reg → Byte
  | .b => g.b
  | .c => g.c
  | .d => g.d
  | .e => g.e
  | .h => g.h
  | .l => g.l
  | .a => g.a

/-- `x[i] <- v` (rule R7). -/
def Regs.set (g : Regs) (r : Reg) (v : Byte) : Regs :=
  match r with
  | .b => { g with b := v }
  | .c => { g with c := v }
  | .d => { g with d := v }
  | .e => { g with e := v }
  | .h => { g with h := v }
  | .l => { g with l := v }
  | .a => { g with a := v }

/-- The pairs held in general registers, high-order register first (10_state.md rule R22); SP is none of them. -/
def Regs.setPair (g : Regs) (pp : RegPair) (v : Word) : Regs :=
  match pp with
  | .bc => { g with b := hiByte v, c := loByte v }
  | .de => { g with d := hiByte v, e := loByte v }
  | .hl => { g with h := hiByte v, l := loByte v }
  | .sp => g

/-- `x[i]` over the state. -/
def State.getReg (s : State) (r : Reg) : Byte := s.regs.get r

/-- `x[i] <- v` over the state. -/
def State.setReg (s : State) (r : Reg) (v : Byte) : State := { s with regs := s.regs.set r v }

/-- `rp[j]` (rule R7). -/
def State.getPair (s : State) : RegPair → Word
  | .bc => wordOf s.regs.b s.regs.c
  | .de => wordOf s.regs.d s.regs.e
  | .hl => wordOf s.regs.h s.regs.l
  | .sp => s.sp

/-- `rp[j] <- v` (rule R7): the high register takes bits 15:8, the low register bits 7:0; SP takes the word. -/
def State.setPair (s : State) (pp : RegPair) (v : Word) : State :=
  { s with regs := s.regs.setPair pp v, sp := if pp = .sp then v else s.sp }

/-- The address of the operand M: `H ++ L` (rule R102). -/
def State.hl (s : State) : Word := s.getPair .hl

/-- The operand M as a source: one read of the byte at `H ++ L` (40_arithmetic.md rule R120). -/
def State.operandM (s : State) : Byte := s.memRead s.hl

/-- The operand M as a destination. -/
def State.storeM (s : State) (v : Byte) : State := s.memWrite s.hl v

/-- The byte SID gives RIM in this step: what the input record states, else a free value (43_machine_control_io.md
rule R256). Log 7. -/
def State.sidLevel (s : State) : Bool :=
  match s.now.sid with
  | some level => level
  | none => Config.sid s.tick

/-- `IORead(port)` in this step: what the input record states, else a free value (rule R253). Log 7. -/
def State.ioReadByte (s : State) (port : Byte) : Byte :=
  match s.now.ioRead with
  | some v => v
  | none => Config.ioRead s.tick port

end Sys2Proof.Machine
end

