-- ==== Sys2Proof/Machine/Ops.lean ====
section
/-!
DEFINITION. Sys2Proof/Machine/Ops.lean: the operations the instructions share: advancing the pc, the stack
(20_memory.md rules R66, R67), the shapes of the ALU, jump, call and return instructions, I/O events; then the
boundary between two instructions (60_exceptions.md rule R330): taking the environment's inputs, reset
(70_reset_and_hazards.md rule R380), recognising an interrupt (rule R340) and ENTERING one (rule R347). The return from
an interrupt is the return instruction's `ret` here (rule R353: "There is no return-from-interrupt instruction").
-/

namespace Sys2Proof.Machine

/-! ## Program counter, flags, events -/

/-- `pc <- (pc + n) mod 65536` (10_state.md rule R27). -/
def State.advance (s : State) (n : Word) : State := { s with pc := s.pc + n }

/-- `pc <- target` (00_scope.md rule R9). -/
def State.jump (s : State) (target : Word) : State := { s with pc := target }

/-- The five flags replaced. -/
def State.setFlags (s : State) (f : Flags) : State := { s with flags := f }

/-- The control state replaced. -/
def State.setCtl (s : State) (c : Control) : State := { s with ctl := c }

/-- SP replaced. -/
def State.setSp (s : State) (v : Word) : State := { s with sp := v }

/-- An event appended to the trace (20_memory.md rule R73). -/
def State.emit (s : State) (e : IoEvent) : State := { s with trace := s.trace ++ [e] }

/-! ## Stack -/

/-- `push16(v)` (rule R66): the high-order byte to SP - 1, then the low-order byte to SP - 2, then SP down by 2.
Log 14. -/
def State.push16 (s : State) (v : Word) : State :=
  let s1 := s.memWrite (s.sp - 1) (hiByte v)
  let s2 := s1.memWrite (s.sp - 2) (loByte v)
  s2.setSp (s.sp - 2)

/-- What `pop16()` returns (rule R67): the byte at SP is the low-order half, the byte at SP + 1 the high-order half. -/
def State.stackTop (s : State) : Word := wordOf (s.memRead (s.sp + 1)) (s.memRead s.sp)

/-- What `pop16()` leaves: SP up by 2 (rule R67). -/
def State.dropStack (s : State) : State := s.setSp (s.sp + 2)

/-! ## Shapes shared by instructions -/

/-- A sum to A: `(r, cy, ac) = add8(A, x, c)`, A and all five flags written (40_arithmetic.md rule R121). -/
def State.addToA (s : State) (x : Byte) (c : Bool) : State :=
  let res := add8 s.regs.a x c
  (s.setReg .a res.r).setFlags res.flags

/-- A difference to A: `(r, cy, ac) = sub8(A, x, c)`, A and all five flags written (rule R135). -/
def State.subFromA (s : State) (x : Byte) (c : Bool) : State :=
  let res := sub8 s.regs.a x c
  (s.setReg .a res.r).setFlags res.flags

/-- A comparison: the flags of `sub8(A, x, 0)`, the result discarded (41_logical.md rule R160). -/
def State.compareA (s : State) (x : Byte) : State :=
  s.setFlags (sub8 s.regs.a x false).flags

/-- A bitwise result to A, S Z P from it, CY reset, AC as the operation fixes it (rule R160). -/
def State.logicToA (s : State) (r : Byte) (ac : Bool) : State :=
  (s.setReg .a r).setFlags (logicFlags r ac)

/-- A rotate: A and CY written, no other flag (rule R160). -/
def State.rotateA (s : State) (r : Byte) (cy : Bool) : State :=
  (s.setReg .a r).setFlags { s.flags with cy := cy }

/-- `INR`'s flags (40_arithmetic.md rule R132): of `add8(v, 01H, 0)`, CY unchanged. -/
def State.incFlags (s : State) (v : Byte) : State :=
  s.setFlags ((add8 v 0x01#8 false).flagsKeepCarry s.flags)

/-- `DCR`'s flags (rule R129): of `sub8(v, 01H, 0)`, CY unchanged. -/
def State.decFlags (s : State) (v : Byte) : State :=
  s.setFlags ((sub8 v 0x01#8 false).flagsKeepCarry s.flags)

/-- A jump taken when the condition holds; else the next instruction (42_branch.md rule R200). All three bytes are
read either way (decision D25). -/
def State.jumpIf (s : State) (cond : Cond) (target : Word) : State :=
  if s.flags.holds cond then s.jump target else s.advance 3

/-- A call: the address of the instruction `n` bytes on is pushed, then the transfer (rules R201, R229). -/
def State.callTo (s : State) (n target : Word) : State := (s.push16 (s.pc + n)).jump target

/-- A conditional call (rules R200, R202): not taken, no memory write and SP unchanged. -/
def State.callIf (s : State) (cond : Cond) (target : Word) : State :=
  if s.flags.holds cond then s.callTo 3 target else s.advance 3

/-- `pc <- pop16()` (rule R220): the return from a subroutine and from an interrupt (60_exceptions.md rule R353). -/
def State.ret (s : State) : State := s.dropStack.jump s.stackTop

/-- A conditional return (rules R200, R221): not taken, the stack is not read and SP is unchanged. -/
def State.retIf (s : State) (cond : Cond) : State :=
  if s.flags.holds cond then s.ret else s.advance 1

/-- The restart address `8 * n` (30_encoding.md rule R98, 20_memory.md rule R74). -/
def restartAddress (n : BitVec 3) : Word := BitVec.ofNat 16 (8 * n.toNat)

/-! ## The boundary between two instructions -/

/-- The environment's inputs for the step that begins: the head of the queue, or, when it is empty, nothing presented
(log 5); and the index of the step's free values moves on (log 6). -/
def State.takeInput (s : State) : State :=
  { s with
    now := s.inputs.headD StepInput.quiet
    inputs := s.inputs.tail
    tick := s.tick + 1 }

/-- The control state reset leaves (70_reset_and_hazards.md rule R380); `trap_ie.value` is unspecified (rule R381). -/
def resetControl (tick : Nat) : Control :=
  { ie := false
    m75 := true
    m65 := true
    m55 := true
    r75 := false
    sod := false
    halted := false
    eiDelay := false
    trapIeValid := false
    trapIeValue := Config.resetTrapIe tick }

/-- The registers reset leaves: unspecified (rule R381), so free values. Log 2. -/
def resetRegs (tick : Nat) : Regs :=
  { b := Config.resetRegister tick Reg.b.code
    c := Config.resetRegister tick Reg.c.code
    d := Config.resetRegister tick Reg.d.code
    e := Config.resetRegister tick Reg.e.code
    h := Config.resetRegister tick Reg.h.code
    l := Config.resetRegister tick Reg.l.code
    a := Config.resetRegister tick Reg.a.code }

/-- A reset step (rule R380). Memory is unchanged; registers, flags, SP and `trap_ie.value` are unspecified afterwards
(rule R381). -/
def State.applyReset (s : State) : State :=
  { s with
    regs := resetRegs s.tick
    flags := Flags.ofByte (Config.resetFlagByte s.tick)
    sp := Config.resetSp s.tick
    pc := 0x0000#16
    ctl := resetControl s.tick }

/-- Line 2 of the step cycle (rule R330): an edge on RST 7.5 is latched whatever IE and M75 are. -/
def State.latchEdge (s : State) : State :=
  s.setCtl { s.ctl with r75 := s.ctl.r75 || s.now.lines.r75Edge }

/-- Whether a source is recognised at this boundary (60_exceptions.md rule R340). -/
def State.recognised (s : State) (src : Source) : Bool :=
  let g := s.ctl.ie && !s.ctl.eiDelay
  match src with
  | .trap => s.now.lines.trap
  | .rst75 => g && s.ctl.r75 && !s.ctl.m75
  | .rst65 => g && s.now.lines.r65 && !s.ctl.m65
  | .rst55 => g && s.now.lines.r55 && !s.ctl.m55
  | .intr => g && s.now.lines.intr

/-- The five sources in the order of their priority, highest first (rule R346). -/
def sourcesByPriority : List Source := [.trap, .rst75, .rst65, .rst55, .intr]

/-- Line 3 of the step cycle: the recognised source of highest priority, if there is one (rules R330, R346). -/
def State.selected (s : State) : Option Source := sourcesByPriority.find? (fun src => s.recognised src)

/-- Line 4 of the step cycle: `ei_delay <- 0`. -/
def State.endEiDelay (s : State) : State := s.setCtl { s.ctl with eiDelay := false }

/-- The address an INTR acknowledge enters at: `8 * n` for a supplied RST n, `addr` for a supplied CALL addr; any
other byte sequence has none (rule R341). Log 24. -/
def intrTarget (bytes : List Byte) : Option Word :=
  match decode bytes with
  | .ok (.rst n, []) => some (restartAddress n)
  | .ok (.call addr, []) => some addr
  | _ => none

/-- Where a source's entry goes (rules R335, R347). -/
def State.entryAddress (s : State) : Source → Option Word
  | .trap => some 0x0024#16
  | .rst75 => some 0x003C#16
  | .rst65 => some 0x0034#16
  | .rst55 => some 0x002C#16
  | .intr => intrTarget s.now.intrBytes

/-- The control state an entry leaves (rule R347): TRAP saves IE in `trap_ie`, RST 7.5 clears its latch, every entry
resets IE and leaves the halt state. -/
def Control.acknowledge (c : Control) (src : Source) : Control :=
  { c with
    trapIeValue := if src = .trap then c.ie else c.trapIeValue
    trapIeValid := if src = .trap then true else c.trapIeValid
    r75 := if src = .rst75 then false else c.r75
    ie := false
    halted := false }

/-- TAKING AN EXCEPTION, the one operation: `enter(sel)` (rule R347). The pc at the boundary is pushed, nothing else is
saved (rule R348), and control goes to the entry address. -/
def State.enter (s : State) (src : Source) : Host.Outcome State Fault Refusal :=
  match s.entryAddress src with
  | some target => .next (((s.setCtl (s.ctl.acknowledge src)).push16 s.pc).jump target)
  | none => .refused .intrInstructionNotModelled

end Sys2Proof.Machine
end

