-- ==== Sys2Proof/Machine/Arithmetic.lean ====
section
/-!
DEFINITION. Sys2Proof/Machine/Arithmetic.lean: the arithmetic family (40_arithmetic.md rules R120 to R141). One definition for each instruction, over the
shared operations. Every one of them completes: no instruction raises an exception (60_exceptions.md rule R331).
-/

namespace Sys2Proof.Machine

/-- ACI data: A plus the immediate plus CY (rule R121). -/
def execAci (data : Byte) (s : State) : Host.Outcome State Fault Refusal :=
  .next ((s.addToA data s.flags.cy).advance 2)

/-- ADC R: A plus a register plus CY (rule R122). -/
def execAdcR (r : Reg) (s : State) : Host.Outcome State Fault Refusal :=
  .next ((s.addToA (s.getReg r) s.flags.cy).advance 1)

/-- ADC M: A plus the memory operand plus CY (rule R123). -/
def execAdcM (s : State) : Host.Outcome State Fault Refusal :=
  .next ((s.addToA s.operandM s.flags.cy).advance 1)

/-- ADD R: A plus a register (rule R124). -/
def execAddR (r : Reg) (s : State) : Host.Outcome State Fault Refusal :=
  .next ((s.addToA (s.getReg r) false).advance 1)

/-- ADD M: A plus the memory operand (rule R125). -/
def execAddM (s : State) : Host.Outcome State Fault Refusal :=
  .next ((s.addToA s.operandM false).advance 1)

/-- ADI data: A plus the immediate (rule R126). -/
def execAdi (data : Byte) (s : State) : Host.Outcome State Fault Refusal :=
  .next ((s.addToA data false).advance 2)

/-- DAA: A corrected to two decimal digits; the carry out of the correcting addition is ignored (rule R127). -/
def execDaa (s : State) : Host.Outcome State Fault Refusal :=
  let corr := daaCorrection s.regs.a s.flags.ac s.flags.cy
  let res := add8 s.regs.a corr.1 false
  .next (((s.setReg .a res.r).setFlags { res.flags with cy := corr.2 }).advance 1)

/-- DAD Rp: HL plus a pair; only CY is written, and it is reset when there is no carry (decision D8, log 13) (rule R128). -/
def execDad (pp : RegPair) (s : State) : Host.Outcome State Fault Refusal :=
  let t := s.hl.toNat + (s.getPair pp).toNat
  .next (((s.setPair .hl (BitVec.ofNat 16 t)).setFlags { s.flags with cy := decide (t > 65535) }).advance 1)

/-- DCR R: a register less one (rule R129). -/
def execDcrR (r : Reg) (s : State) : Host.Outcome State Fault Refusal :=
  let v := s.getReg r
  .next (((s.setReg r (sub8 v 0x01#8 false).r).decFlags v).advance 1)

/-- DCR M: the memory operand less one, one read then one write (rule R130). -/
def execDcrM (s : State) : Host.Outcome State Fault Refusal :=
  let v := s.operandM
  .next (((s.storeM (sub8 v 0x01#8 false).r).decFlags v).advance 1)

/-- DCX Rp: a pair less one, no flag written (rule R131). -/
def execDcx (pp : RegPair) (s : State) : Host.Outcome State Fault Refusal :=
  .next ((s.setPair pp (s.getPair pp - 1)).advance 1)

/-- INR R: a register plus one (rule R132). -/
def execInrR (r : Reg) (s : State) : Host.Outcome State Fault Refusal :=
  let v := s.getReg r
  .next (((s.setReg r (add8 v 0x01#8 false).r).incFlags v).advance 1)

/-- INR M: the memory operand plus one, one read then one write (rule R133). -/
def execInrM (s : State) : Host.Outcome State Fault Refusal :=
  let v := s.operandM
  .next (((s.storeM (add8 v 0x01#8 false).r).incFlags v).advance 1)

/-- INX Rp: a pair plus one, no flag written (rule R134). -/
def execInx (pp : RegPair) (s : State) : Host.Outcome State Fault Refusal :=
  .next ((s.setPair pp (s.getPair pp + 1)).advance 1)

/-- SBB R: A less a register less the borrow (rule R135). -/
def execSbbR (r : Reg) (s : State) : Host.Outcome State Fault Refusal :=
  .next ((s.subFromA (s.getReg r) s.flags.cy).advance 1)

/-- SBB M: A less the memory operand less the borrow (rule R136). -/
def execSbbM (s : State) : Host.Outcome State Fault Refusal :=
  .next ((s.subFromA s.operandM s.flags.cy).advance 1)

/-- SBI data: A less the immediate less the borrow (rule R137). -/
def execSbi (data : Byte) (s : State) : Host.Outcome State Fault Refusal :=
  .next ((s.subFromA data s.flags.cy).advance 2)

/-- SUB R: A less a register (rule R138). -/
def execSubR (r : Reg) (s : State) : Host.Outcome State Fault Refusal :=
  .next ((s.subFromA (s.getReg r) false).advance 1)

/-- SUB M: A less the memory operand (rule R139). -/
def execSubM (s : State) : Host.Outcome State Fault Refusal :=
  .next ((s.subFromA s.operandM false).advance 1)

/-- SUI data: A less the immediate (rule R140). -/
def execSui (data : Byte) (s : State) : Host.Outcome State Fault Refusal :=
  .next ((s.subFromA data false).advance 2)

end Sys2Proof.Machine
end

