-- ==== Sys2Proof/Machine/Branch.lean ====
section
/-!
DEFINITION. Sys2Proof/Machine/Branch.lean: the branch family (42_branch.md rules R200 to R231). One definition for each instruction, over the
shared operations. Every one of them completes: no instruction raises an exception (60_exceptions.md rule R331).
-/

namespace Sys2Proof.Machine

/-- CALL address (rule R201). -/
def execCall (addr : Word) (s : State) : Host.Outcome State Fault Refusal :=
  .next (s.callTo 3 addr)

/-- CC address: call if carry, CY = 1 (rule R202). -/
def execCc (addr : Word) (s : State) : Host.Outcome State Fault Refusal :=
  .next (s.callIf .c addr)

/-- CNC address: call if no carry, CY = 0 (rule R203). -/
def execCnc (addr : Word) (s : State) : Host.Outcome State Fault Refusal :=
  .next (s.callIf .nc addr)

/-- CP address: call if positive, S = 0 (rule R204). -/
def execCp (addr : Word) (s : State) : Host.Outcome State Fault Refusal :=
  .next (s.callIf .p addr)

/-- CM address: call if minus, S = 1 (rule R205). -/
def execCm (addr : Word) (s : State) : Host.Outcome State Fault Refusal :=
  .next (s.callIf .m addr)

/-- CPE address: call if parity even, P = 1 (rule R206). -/
def execCpe (addr : Word) (s : State) : Host.Outcome State Fault Refusal :=
  .next (s.callIf .pe addr)

/-- CPO address: call if parity odd, P = 0 (rule R207). -/
def execCpo (addr : Word) (s : State) : Host.Outcome State Fault Refusal :=
  .next (s.callIf .po addr)

/-- CZ address: call if zero, Z = 1 (rule R208). -/
def execCz (addr : Word) (s : State) : Host.Outcome State Fault Refusal :=
  .next (s.callIf .z addr)

/-- CNZ address: call if not zero, Z = 0 (rule R209). -/
def execCnz (addr : Word) (s : State) : Host.Outcome State Fault Refusal :=
  .next (s.callIf .nz addr)

/-- JMP address (rule R210). -/
def execJmp (addr : Word) (s : State) : Host.Outcome State Fault Refusal :=
  .next (s.jump addr)

/-- JC address: jump if carry, CY = 1 (rule R211). -/
def execJc (addr : Word) (s : State) : Host.Outcome State Fault Refusal :=
  .next (s.jumpIf .c addr)

/-- JNC address: jump if no carry, CY = 0 (rule R212). -/
def execJnc (addr : Word) (s : State) : Host.Outcome State Fault Refusal :=
  .next (s.jumpIf .nc addr)

/-- JP address: jump if positive, S = 0 (rule R213). -/
def execJp (addr : Word) (s : State) : Host.Outcome State Fault Refusal :=
  .next (s.jumpIf .p addr)

/-- JM address: jump if minus, S = 1 (rule R214). -/
def execJm (addr : Word) (s : State) : Host.Outcome State Fault Refusal :=
  .next (s.jumpIf .m addr)

/-- JPE address: jump if parity even, P = 1 (rule R215). -/
def execJpe (addr : Word) (s : State) : Host.Outcome State Fault Refusal :=
  .next (s.jumpIf .pe addr)

/-- JPO address: jump if parity odd, P = 0 (rule R216). -/
def execJpo (addr : Word) (s : State) : Host.Outcome State Fault Refusal :=
  .next (s.jumpIf .po addr)

/-- JZ address: jump if zero, Z = 1 (rule R217). -/
def execJz (addr : Word) (s : State) : Host.Outcome State Fault Refusal :=
  .next (s.jumpIf .z addr)

/-- JNZ address: jump if not zero, Z = 0 (rule R218). -/
def execJnz (addr : Word) (s : State) : Host.Outcome State Fault Refusal :=
  .next (s.jumpIf .nz addr)

/-- PCHL: HL to the pc (rule R219). -/
def execPchl (s : State) : Host.Outcome State Fault Refusal :=
  .next (s.jump s.hl)

/-- RET (rule R220). -/
def execRet (s : State) : Host.Outcome State Fault Refusal :=
  .next s.ret

/-- RC: return if carry, CY = 1 (rule R221). -/
def execRc (s : State) : Host.Outcome State Fault Refusal :=
  .next (s.retIf .c)

/-- RNC: return if no carry, CY = 0 (rule R222). -/
def execRnc (s : State) : Host.Outcome State Fault Refusal :=
  .next (s.retIf .nc)

/-- RP: return if positive, S = 0 (rule R223). -/
def execRp (s : State) : Host.Outcome State Fault Refusal :=
  .next (s.retIf .p)

/-- RM: return if minus, S = 1 (rule R224). -/
def execRm (s : State) : Host.Outcome State Fault Refusal :=
  .next (s.retIf .m)

/-- RPE: return if parity even, P = 1 (rule R225). -/
def execRpe (s : State) : Host.Outcome State Fault Refusal :=
  .next (s.retIf .pe)

/-- RPO: return if parity odd, P = 0 (rule R226). -/
def execRpo (s : State) : Host.Outcome State Fault Refusal :=
  .next (s.retIf .po)

/-- RZ: return if zero, Z = 1 (rule R227). -/
def execRz (s : State) : Host.Outcome State Fault Refusal :=
  .next (s.retIf .z)

/-- RNZ: return if not zero, Z = 0 (rule R228). -/
def execRnz (s : State) : Host.Outcome State Fault Refusal :=
  .next (s.retIf .nz)

/-- RST n: a one-byte call of address 8 n; no interrupt state changes (rule R229). -/
def execRst (n : BitVec 3) (s : State) : Host.Outcome State Fault Refusal :=
  .next (s.callTo 1 (restartAddress n))

end Sys2Proof.Machine
end

