-- ==== Sys2Proof/Machine/Control.lean ====
section
/-!
DEFINITION. Sys2Proof/Machine/Control.lean: the machine control, interrupt control and input/output family (43_machine_control_io.md rules R250 to R257). One definition for each instruction, over the
shared operations. Every one of them completes: no instruction raises an exception (60_exceptions.md rule R331).
-/

namespace Sys2Proof.Machine

/-- DI: the Interrupt Enable flip-flop reset (rule R250). -/
def execDi (s : State) : Host.Outcome State Fault Refusal :=
  .next ((s.setCtl { s.ctl with ie := false }).advance 1)

/-- EI: the Interrupt Enable flip-flop set; no maskable interrupt at the boundary that follows (log 20) (rule R251). -/
def execEi (s : State) : Host.Outcome State Fault Refusal :=
  .next ((s.setCtl { s.ctl with ie := true, eiDelay := true }).advance 1)

/-- HLT: the halt state, with the pc after the HLT (rule R252). -/
def execHlt (s : State) : Host.Outcome State Fault Refusal :=
  .next ((s.setCtl { s.ctl with halted := true }).advance 1)

/-- IN port: one read of the I/O space to A, no flag written (rule R253). -/
def execInPort (port : Byte) (s : State) : Host.Outcome State Fault Refusal :=
  let v := s.ioReadByte port
  .next (((s.setReg .a v).emit (.read port v)).advance 2)

/-- NOP (rule R254). -/
def execNop (s : State) : Host.Outcome State Fault Refusal :=
  .next (s.advance 1)

/-- OUT port: one write of A to the I/O space (rule R255). -/
def execOutPort (port : Byte) (s : State) : Host.Outcome State Fault Refusal :=
  .next ((s.emit (.write port s.regs.a)).advance 2)

/-- The word RIM reads: SID, I7.5, I6.5, I5.5, IE, M7.5, M6.5, M5.5 in bits 7 to 0; IE is the saved one while
`trap_ie.valid` is 1 (rule R256, decision D17). Log 21. -/
def rimByte (s : State) : Byte :=
  let ie := if s.ctl.trapIeValid then s.ctl.trapIeValue else s.ctl.ie
  BitVec.ofBool s.sidLevel ++ BitVec.ofBool s.ctl.r75 ++ BitVec.ofBool s.now.lines.r65
    ++ BitVec.ofBool s.now.lines.r55 ++ BitVec.ofBool ie ++ BitVec.ofBool s.ctl.m75
    ++ BitVec.ofBool s.ctl.m65 ++ BitVec.ofBool s.ctl.m55

/-- RIM: the interrupt status word to A; the first RIM after a TRAP reports and drops the saved IE (rule R256). -/
def execRim (s : State) : Host.Outcome State Fault Refusal :=
  .next (((s.setReg .a (rimByte s)).setCtl { s.ctl with trapIeValid := false }).advance 1)

/-- The control state SIM leaves: bit 3 (MSE) copies bits 2, 1, 0 to the masks, bit 4 resets the RST 7.5 latch, bit 6
(SDE) copies bit 7 to SOD, bit 5 has no effect (rule R257, decision D18). Log 21. -/
def simControl (a : Byte) (c : Control) : Control :=
  { c with
    m75 := if a.getLsbD 3 then a.getLsbD 2 else c.m75
    m65 := if a.getLsbD 3 then a.getLsbD 1 else c.m65
    m55 := if a.getLsbD 3 then a.getLsbD 0 else c.m55
    r75 := if a.getLsbD 4 then false else c.r75
    sod := if a.getLsbD 6 then a.getLsbD 7 else c.sod }

/-- SIM: the masks, the RST 7.5 latch and SOD from A, each under its own enable bit (rule R257). -/
def execSim (s : State) : Host.Outcome State Fault Refusal :=
  .next ((s.setCtl (simControl s.regs.a s.ctl)).advance 1)

end Sys2Proof.Machine
end

