-- ==== Sys2Proof/Machine/Logical.lean ====
section
/-!
DEFINITION. Sys2Proof/Machine/Logical.lean: the logical, compare, rotate and carry family (41_logical.md rules R160 to R179). One definition for each instruction, over the
shared operations. Every one of them completes: no instruction raises an exception (60_exceptions.md rule R331).
-/

namespace Sys2Proof.Machine

/-- ANA R: A AND a register; CY reset, AC set (rule R161). -/
def execAnaR (r : Reg) (s : State) : Host.Outcome State Fault Refusal :=
  .next ((s.logicToA (s.regs.a &&& s.getReg r) true).advance 1)

/-- ANA M: A AND the memory operand; CY reset, AC set (rule R162). -/
def execAnaM (s : State) : Host.Outcome State Fault Refusal :=
  .next ((s.logicToA (s.regs.a &&& s.operandM) true).advance 1)

/-- ANI data: A AND the immediate; CY reset, AC set (rule R163). -/
def execAni (data : Byte) (s : State) : Host.Outcome State Fault Refusal :=
  .next ((s.logicToA (s.regs.a &&& data) true).advance 2)

/-- ORA R: A OR a register; CY reset, AC reset (rule R169). -/
def execOraR (r : Reg) (s : State) : Host.Outcome State Fault Refusal :=
  .next ((s.logicToA (s.regs.a ||| s.getReg r) false).advance 1)

/-- ORA M: A OR the memory operand; CY reset, AC reset (rule R170). -/
def execOraM (s : State) : Host.Outcome State Fault Refusal :=
  .next ((s.logicToA (s.regs.a ||| s.operandM) false).advance 1)

/-- ORI data: A OR the immediate; CY reset, AC reset (rule R171). -/
def execOri (data : Byte) (s : State) : Host.Outcome State Fault Refusal :=
  .next ((s.logicToA (s.regs.a ||| data) false).advance 2)

/-- XRA R: A exclusive-OR a register; CY reset, AC reset (rule R177). -/
def execXraR (r : Reg) (s : State) : Host.Outcome State Fault Refusal :=
  .next ((s.logicToA (s.regs.a ^^^ s.getReg r) false).advance 1)

/-- XRA M: A exclusive-OR the memory operand; CY reset, AC reset (rule R178). -/
def execXraM (s : State) : Host.Outcome State Fault Refusal :=
  .next ((s.logicToA (s.regs.a ^^^ s.operandM) false).advance 1)

/-- XRI data: A exclusive-OR the immediate; CY reset, AC reset (rule R179). -/
def execXri (data : Byte) (s : State) : Host.Outcome State Fault Refusal :=
  .next ((s.logicToA (s.regs.a ^^^ data) false).advance 2)

/-- CMA: A complemented, no flag written (rule R164). -/
def execCma (s : State) : Host.Outcome State Fault Refusal :=
  .next ((s.setReg .a (~~~s.regs.a)).advance 1)

/-- CMC: CY complemented, no other flag (rule R165). -/
def execCmc (s : State) : Host.Outcome State Fault Refusal :=
  .next ((s.setFlags { s.flags with cy := !s.flags.cy }).advance 1)

/-- CMP R: the flags of A less a register, A unchanged (rule R166). -/
def execCmpR (r : Reg) (s : State) : Host.Outcome State Fault Refusal :=
  .next ((s.compareA (s.getReg r)).advance 1)

/-- CMP M: the flags of A less the memory operand, A unchanged (rule R167). -/
def execCmpM (s : State) : Host.Outcome State Fault Refusal :=
  .next ((s.compareA s.operandM).advance 1)

/-- CPI data: the flags of A less the immediate, A unchanged (rule R168). -/
def execCpi (data : Byte) (s : State) : Host.Outcome State Fault Refusal :=
  .next ((s.compareA data).advance 2)

/-- RAL: A rotated left through CY: old bit 7 to CY, old CY to bit 0 (rule R172). -/
def execRal (s : State) : Host.Outcome State Fault Refusal :=
  .next ((s.rotateA (s.regs.a.extractLsb' 0 7 ++ BitVec.ofBool s.flags.cy) (s.regs.a.getLsbD 7)).advance 1)

/-- RAR: A rotated right through CY: old bit 0 to CY, old CY to bit 7 (rule R173). -/
def execRar (s : State) : Host.Outcome State Fault Refusal :=
  .next ((s.rotateA (BitVec.ofBool s.flags.cy ++ s.regs.a.extractLsb' 1 7) (s.regs.a.getLsbD 0)).advance 1)

/-- RLC: A rotated left: old bit 7 to bit 0 and CY (rule R174). -/
def execRlc (s : State) : Host.Outcome State Fault Refusal :=
  .next ((s.rotateA (s.regs.a.extractLsb' 0 7 ++ BitVec.ofBool (s.regs.a.getLsbD 7)) (s.regs.a.getLsbD 7)).advance 1)

/-- RRC: A rotated right: old bit 0 to bit 7 and CY (rule R175). -/
def execRrc (s : State) : Host.Outcome State Fault Refusal :=
  .next ((s.rotateA (BitVec.ofBool (s.regs.a.getLsbD 0) ++ s.regs.a.extractLsb' 1 7) (s.regs.a.getLsbD 0)).advance 1)

/-- STC: CY set, no other flag (rule R176). -/
def execStc (s : State) : Host.Outcome State Fault Refusal :=
  .next ((s.setFlags { s.flags with cy := true }).advance 1)

end Sys2Proof.Machine
end

