-- ==== Sys2Proof/Machine/Stack.lean ====
section
/-!
DEFINITION. Sys2Proof/Machine/Stack.lean: the stack family (45_stack.md rules R310 to R314). One definition for each instruction, over the
shared operations. Every one of them completes: no instruction raises an exception (60_exceptions.md rule R331).
-/

namespace Sys2Proof.Machine

/-- POP Rp: the word on top of the stack to BC, DE or HL (rule R310). -/
def execPopRp (pp : RegPair) (s : State) : Host.Outcome State Fault Refusal :=
  .next ((s.dropStack.setPair pp s.stackTop).advance 1)

/-- POP PSW: the flags from the byte at SP, A from the next one; bits 5, 3, 1 are ignored (90_conflicts.md C10) (rule R311). -/
def execPopPsw (s : State) : Host.Outcome State Fault Refusal :=
  let v := s.stackTop
  .next (((s.dropStack.setReg .a (hiByte v)).setFlags (Flags.ofByte (loByte v))).advance 1)

/-- PUSH Rp: BC, DE or HL onto the stack (rule R312). -/
def execPushRp (pp : RegPair) (s : State) : Host.Outcome State Fault Refusal :=
  .next ((s.push16 (s.getPair pp)).advance 1)

/-- PUSH PSW: A and the flag byte onto the stack; bits 5, 3, 1 of the flag byte are free values (log 8) (rule R313). -/
def execPushPsw (s : State) : Host.Outcome State Fault Refusal :=
  let flagByte := s.flags.toByte (Config.unusedFlagBits s.tick)
  .next ((s.push16 (wordOf s.regs.a flagByte)).advance 1)

/-- XTHL: HL exchanged with the two bytes on top of the stack; both are read before either is written; SP unchanged (rule R314). -/
def execXthl (s : State) : Host.Outcome State Fault Refusal :=
  let top := s.stackTop
  let s1 := s.memWrite (s.sp + 1) s.regs.h
  let s2 := s1.memWrite s.sp s.regs.l
  .next ((s2.setPair .hl top).advance 1)

end Sys2Proof.Machine
end

