-- ==== Sys2Proof/Machine/Transfer.lean ====
section
/-!
DEFINITION. Sys2Proof/Machine/Transfer.lean: the data transfer family (44_data_transfer.md rules R280 to R294). One definition for each instruction, over the
shared operations. Every one of them completes: no instruction raises an exception (60_exceptions.md rule R331).
-/

namespace Sys2Proof.Machine

/-- LDA address: the byte at the address to A (rule R281). -/
def execLda (addr : Word) (s : State) : Host.Outcome State Fault Refusal :=
  .next ((s.setReg .a (s.memRead addr)).advance 3)

/-- LDAX Rp: the byte BC or DE points to, to A (rule R282). -/
def execLdax (pp : RegPair) (s : State) : Host.Outcome State Fault Refusal :=
  .next ((s.setReg .a (s.memRead (s.getPair pp))).advance 1)

/-- LHLD address: the byte at the address to L, the next one to H (rule R283). -/
def execLhld (addr : Word) (s : State) : Host.Outcome State Fault Refusal :=
  .next ((s.setPair .hl (wordOf (s.memRead (addr + 1)) (s.memRead addr))).advance 3)

/-- LXI Rp, data16: the immediate to a pair (rule R284). -/
def execLxi (pp : RegPair) (data : Word) (s : State) : Host.Outcome State Fault Refusal :=
  .next ((s.setPair pp data).advance 3)

/-- MOV Rd, Rs (rule R285). -/
def execMovRR (rd rs : Reg) (s : State) : Host.Outcome State Fault Refusal :=
  .next ((s.setReg rd (s.getReg rs)).advance 1)

/-- MOV M, Rs (rule R286). -/
def execMovMR (rs : Reg) (s : State) : Host.Outcome State Fault Refusal :=
  .next ((s.storeM (s.getReg rs)).advance 1)

/-- MOV Rd, M: the address is formed before the register is written (rule R287). -/
def execMovRM (rd : Reg) (s : State) : Host.Outcome State Fault Refusal :=
  .next ((s.setReg rd s.operandM).advance 1)

/-- MVI R, data (rule R288). -/
def execMviR (r : Reg) (data : Byte) (s : State) : Host.Outcome State Fault Refusal :=
  .next ((s.setReg r data).advance 2)

/-- MVI M, data (rule R289). -/
def execMviM (data : Byte) (s : State) : Host.Outcome State Fault Refusal :=
  .next ((s.storeM data).advance 2)

/-- SHLD address: L to the address, H to the next one (rule R290). -/
def execShld (addr : Word) (s : State) : Host.Outcome State Fault Refusal :=
  .next (((s.memWrite addr s.regs.l).memWrite (addr + 1) s.regs.h).advance 3)

/-- SPHL: HL to SP (rule R291). -/
def execSphl (s : State) : Host.Outcome State Fault Refusal :=
  .next ((s.setSp s.hl).advance 1)

/-- STA address: A to the address (rule R292). -/
def execSta (addr : Word) (s : State) : Host.Outcome State Fault Refusal :=
  .next ((s.memWrite addr s.regs.a).advance 3)

/-- STAX Rp: A to where BC or DE points (rule R293). -/
def execStax (pp : RegPair) (s : State) : Host.Outcome State Fault Refusal :=
  .next ((s.memWrite (s.getPair pp) s.regs.a).advance 1)

/-- XCHG: HL and DE exchanged, simultaneously (rule R294). -/
def execXchg (s : State) : Host.Outcome State Fault Refusal :=
  .next (((s.setPair .hl (s.getPair .de)).setPair .de (s.getPair .hl)).advance 1)

end Sys2Proof.Machine
end

