-- ==== Sys2Proof/Machine/Dispatch.lean ====
section
/-!
DEFINITION. Sys2Proof/Machine/Dispatch.lean: one arm for each instruction, in the order of spec/opcode_table.json, each one
direct call of its meaning. While an instruction executes, `pc` is the address of its first byte (10_state.md rule R27).
-/

namespace Sys2Proof.Machine

def exec (i : Instr) (s : State) : Host.Outcome State Fault Refusal :=
  match i with
  | .aci data => Sys2Proof.Machine.execAci data s
  | .adcR r => Sys2Proof.Machine.execAdcR r s
  | .adcM => Sys2Proof.Machine.execAdcM s
  | .addR r => Sys2Proof.Machine.execAddR r s
  | .addM => Sys2Proof.Machine.execAddM s
  | .adi data => Sys2Proof.Machine.execAdi data s
  | .anaR r => Sys2Proof.Machine.execAnaR r s
  | .anaM => Sys2Proof.Machine.execAnaM s
  | .ani data => Sys2Proof.Machine.execAni data s
  | .call addr => Sys2Proof.Machine.execCall addr s
  | .cc addr => Sys2Proof.Machine.execCc addr s
  | .cnc addr => Sys2Proof.Machine.execCnc addr s
  | .cp addr => Sys2Proof.Machine.execCp addr s
  | .cm addr => Sys2Proof.Machine.execCm addr s
  | .cpe addr => Sys2Proof.Machine.execCpe addr s
  | .cpo addr => Sys2Proof.Machine.execCpo addr s
  | .cz addr => Sys2Proof.Machine.execCz addr s
  | .cnz addr => Sys2Proof.Machine.execCnz addr s
  | .cma => Sys2Proof.Machine.execCma s
  | .cmc => Sys2Proof.Machine.execCmc s
  | .cmpR r => Sys2Proof.Machine.execCmpR r s
  | .cmpM => Sys2Proof.Machine.execCmpM s
  | .cpi data => Sys2Proof.Machine.execCpi data s
  | .daa => Sys2Proof.Machine.execDaa s
  | .dad pp => Sys2Proof.Machine.execDad pp s
  | .dcrR r => Sys2Proof.Machine.execDcrR r s
  | .dcrM => Sys2Proof.Machine.execDcrM s
  | .dcx pp => Sys2Proof.Machine.execDcx pp s
  | .di => Sys2Proof.Machine.execDi s
  | .ei => Sys2Proof.Machine.execEi s
  | .hlt => Sys2Proof.Machine.execHlt s
  | .inPort port => Sys2Proof.Machine.execInPort port s
  | .inrR r => Sys2Proof.Machine.execInrR r s
  | .inrM => Sys2Proof.Machine.execInrM s
  | .inx pp => Sys2Proof.Machine.execInx pp s
  | .jmp addr => Sys2Proof.Machine.execJmp addr s
  | .jc addr => Sys2Proof.Machine.execJc addr s
  | .jnc addr => Sys2Proof.Machine.execJnc addr s
  | .jp addr => Sys2Proof.Machine.execJp addr s
  | .jm addr => Sys2Proof.Machine.execJm addr s
  | .jpe addr => Sys2Proof.Machine.execJpe addr s
  | .jpo addr => Sys2Proof.Machine.execJpo addr s
  | .jz addr => Sys2Proof.Machine.execJz addr s
  | .jnz addr => Sys2Proof.Machine.execJnz addr s
  | .lda addr => Sys2Proof.Machine.execLda addr s
  | .ldax pp => Sys2Proof.Machine.execLdax pp s
  | .lhld addr => Sys2Proof.Machine.execLhld addr s
  | .lxi pp data => Sys2Proof.Machine.execLxi pp data s
  | .movRR rd rs => Sys2Proof.Machine.execMovRR rd rs s
  | .movMR rs => Sys2Proof.Machine.execMovMR rs s
  | .movRM rd => Sys2Proof.Machine.execMovRM rd s
  | .mviR r data => Sys2Proof.Machine.execMviR r data s
  | .mviM data => Sys2Proof.Machine.execMviM data s
  | .nop => Sys2Proof.Machine.execNop s
  | .oraR r => Sys2Proof.Machine.execOraR r s
  | .oraM => Sys2Proof.Machine.execOraM s
  | .ori data => Sys2Proof.Machine.execOri data s
  | .outPort port => Sys2Proof.Machine.execOutPort port s
  | .pchl => Sys2Proof.Machine.execPchl s
  | .popRp pp => Sys2Proof.Machine.execPopRp pp s
  | .popPsw => Sys2Proof.Machine.execPopPsw s
  | .pushRp pp => Sys2Proof.Machine.execPushRp pp s
  | .pushPsw => Sys2Proof.Machine.execPushPsw s
  | .ral => Sys2Proof.Machine.execRal s
  | .rar => Sys2Proof.Machine.execRar s
  | .rlc => Sys2Proof.Machine.execRlc s
  | .rrc => Sys2Proof.Machine.execRrc s
  | .ret => Sys2Proof.Machine.execRet s
  | .rc => Sys2Proof.Machine.execRc s
  | .rnc => Sys2Proof.Machine.execRnc s
  | .rp => Sys2Proof.Machine.execRp s
  | .rm => Sys2Proof.Machine.execRm s
  | .rpe => Sys2Proof.Machine.execRpe s
  | .rpo => Sys2Proof.Machine.execRpo s
  | .rz => Sys2Proof.Machine.execRz s
  | .rnz => Sys2Proof.Machine.execRnz s
  | .rim => Sys2Proof.Machine.execRim s
  | .rst n => Sys2Proof.Machine.execRst n s
  | .sbbR r => Sys2Proof.Machine.execSbbR r s
  | .sbbM => Sys2Proof.Machine.execSbbM s
  | .sbi data => Sys2Proof.Machine.execSbi data s
  | .shld addr => Sys2Proof.Machine.execShld addr s
  | .sim => Sys2Proof.Machine.execSim s
  | .sphl => Sys2Proof.Machine.execSphl s
  | .sta addr => Sys2Proof.Machine.execSta addr s
  | .stax pp => Sys2Proof.Machine.execStax pp s
  | .stc => Sys2Proof.Machine.execStc s
  | .subR r => Sys2Proof.Machine.execSubR r s
  | .subM => Sys2Proof.Machine.execSubM s
  | .sui data => Sys2Proof.Machine.execSui data s
  | .xchg => Sys2Proof.Machine.execXchg s
  | .xraR r => Sys2Proof.Machine.execXraR r s
  | .xraM => Sys2Proof.Machine.execXraM s
  | .xri data => Sys2Proof.Machine.execXri data s
  | .xthl => Sys2Proof.Machine.execXthl s

end Sys2Proof.Machine
end

