-- ==== Sys2Proof/Machine/Fetch.lean ====
section
/-!
DEFINITION. Sys2Proof/Machine/Fetch.lean: fetching an instruction (30_encoding.md rules R100 to R102, R106), and placing
one where the next step fetches it.
-/

namespace Sys2Proof.Machine

/-- Line 7 of the step cycle up to the execution (60_exceptions.md rule R330; 30_encoding.md rule R106): the opcode at
`pc`, then only the operand bytes its format has, at ascending addresses modulo 65536 (20_memory.md rule R71). An
unassigned opcode is answered with the byte. -/
def State.fetch (s : State) : Except Byte Instr :=
  let op := s.fetchRead s.pc
  match decodeOpcode op with
  | none => .error op
  | some (.f1 i) => .ok i
  | some (.f2 i) => .ok (i (s.fetchRead (s.pc + 1)))
  | some (.f3 i) => .ok (i (wordOf (s.fetchRead (s.pc + 2)) (s.fetchRead (s.pc + 1))))

/-- Bytes placed in memory from outside the machine, at ascending addresses modulo 65536 (the loading of `InitMem`; not
a write of the MPU, so read-only memory takes them too). -/
def State.load (s : State) (a : Word) : List Byte → State
  | [] => s
  | v :: rest => State.load { s with mem := s.mem.write a.toNat v } (a + 1) rest

/-- Whether the next step fetches the instruction at `pc`: no reset and no interrupt at the boundary, not halted, and
memory behind the three addresses. -/
def State.willFetch (s : State) : Bool :=
  let s1 := s.takeInput.latchEdge
  !s1.now.resetIn && s1.selected.isNone && !s1.ctl.halted
    && decide (kindAt s.memMap s.pc ≠ .empty)
    && decide (kindAt s.memMap (s.pc + 1) ≠ .empty)
    && decide (kindAt s.memMap (s.pc + 2) ≠ .empty)

/-- The environment's next inputs with no reset and no interrupt line in them. -/
def calmInputs : List StepInput → List StepInput
  | [] => []
  | x :: rest => { x with resetIn := false, lines := StepInput.quiet.lines } :: rest

/-- A state whose next step fetches the instruction at `pc`: the state itself where it does so, else the state with what
stands in the way taken away (log 29). -/
def State.readyToFetch (s : State) : State :=
  if s.willFetch then s
  else
    { s with
      inputs := calmInputs s.inputs
      memMap := []
      ctl := { s.ctl with halted := false, r75 := false } }

/-- The instruction with bits `w` (numbered as spec/opcode_table.json numbers them) stored where the next step
fetches. -/
def State.placeInstruction (s : State) (nbits w : Nat) : State :=
  let s1 := s.readyToFetch
  s1.load s1.pc (tableBytes nbits w)

end Sys2Proof.Machine
end

