-- ==== Sys2Proof/Machine/Step.lean ====
section
/-!
DEFINITION. Sys2Proof/Machine/Step.lean: one step of the machine, the step cycle of 60_exceptions.md rule R330, over the operations
of Ops and Fetch; and the placing of an instruction where the next step fetches it.
-/

namespace Sys2Proof.Machine

/-- One step (rule R330): a reset, one interrupt entry, one idle step in the halt state, or one whole instruction. -/
def step (s : State) : Host.Outcome State Fault Refusal :=
  let s0 := s.takeInput
  if s0.now.resetIn then .next s0.applyReset
  else
    let s1 := s0.latchEdge
    match s1.selected with
    | some src => s1.endEiDelay.enter src
    | none =>
      let s2 := s1.endEiDelay
      if s2.ctl.halted then .next s2
      else
        match s2.fetch with
        | .ok i => exec i s2
        | .error op => .refused (.unassignedOpcode op)

/-- The state with the instruction whose bits are `w` stored where its next step fetches. -/
def State.withFetchWord (s : State) (nbits w : Nat) : State := s.placeInstruction nbits w

end Sys2Proof.Machine
end

