-- ==== Sys2Proof/Machine/Timing.lean ====
section
/-!
DEFINITION. Sys2Proof/Machine/Timing.lean: the source's timing figures as data (70_reset_and_hazards.md rule R393). No step
depends on them (rule R394); `bytes` is the instruction's length (30_encoding.md rule R93). Log 28.
-/

namespace Sys2Proof.Machine

/-- One Bytes / M-Cycles / T-States line. `orMore` marks HLT's "two or more" and "five or more". -/
structure Timing where
  bytes : Nat
  mCycles : Nat
  tStates : Nat
  orMore : Bool
deriving DecidableEq, Repr

/-- The line with exact counts. -/
def Timing.exactly (bytes mCycles tStates : Nat) : Timing :=
  { bytes := bytes, mCycles := mCycles, tStates := tStates, orMore := false }

/-- A conditional jump's line (rule R393). -/
def conditionalJumpTiming (taken : Bool) : Timing :=
  if taken then Timing.exactly 3 3 10 else Timing.exactly 3 2 7

/-- A conditional call's line (rule R393). -/
def conditionalCallTiming (taken : Bool) : Timing :=
  if taken then Timing.exactly 3 5 18 else Timing.exactly 3 2 9

/-- A conditional return's line (rule R393). -/
def conditionalReturnTiming (taken : Bool) : Timing :=
  if taken then Timing.exactly 1 3 12 else Timing.exactly 1 1 6

/-- The timing table of rule R393; `taken` matters for the conditional instructions only. -/
def timing (i : Instr) (taken : Bool) : Timing :=
  match i with
  | .aci _ | .adi _ | .sui _ | .sbi _ | .ani _ | .xri _ | .ori _ | .cpi _ => Timing.exactly 2 2 7
  | .addR _ | .adcR _ | .subR _ | .sbbR _ | .anaR _ | .xraR _ | .oraR _ | .cmpR _ => Timing.exactly 1 1 4
  | .addM | .adcM | .subM | .sbbM | .anaM | .xraM | .oraM | .cmpM => Timing.exactly 1 2 7
  | .call _ => Timing.exactly 3 5 18
  | .cc _ | .cnc _ | .cp _ | .cm _ | .cpe _ | .cpo _ | .cz _ | .cnz _ => conditionalCallTiming taken
  | .cma | .cmc | .stc | .daa => Timing.exactly 1 1 4
  | .rlc | .rrc | .ral | .rar => Timing.exactly 1 1 4
  | .dad _ => Timing.exactly 1 3 10
  | .inrR _ | .dcrR _ => Timing.exactly 1 1 4
  | .inrM | .dcrM => Timing.exactly 1 3 10
  | .inx _ | .dcx _ => Timing.exactly 1 1 6
  | .di | .ei | .nop | .rim | .sim => Timing.exactly 1 1 4
  | .hlt => { bytes := 1, mCycles := 2, tStates := 5, orMore := true }
  | .inPort _ | .outPort _ => Timing.exactly 2 3 10
  | .jmp _ => Timing.exactly 3 3 10
  | .jc _ | .jnc _ | .jp _ | .jm _ | .jpe _ | .jpo _ | .jz _ | .jnz _ => conditionalJumpTiming taken
  | .lda _ | .sta _ => Timing.exactly 3 4 13
  | .ldax _ | .stax _ => Timing.exactly 1 2 7
  | .lhld _ | .shld _ => Timing.exactly 3 5 16
  | .lxi _ _ => Timing.exactly 3 3 10
  | .movRR _ _ => Timing.exactly 1 1 4
  | .movMR _ | .movRM _ => Timing.exactly 1 2 7
  | .mviR _ _ => Timing.exactly 2 2 7
  | .mviM _ => Timing.exactly 2 3 10
  | .pchl | .sphl => Timing.exactly 1 1 6
  | .popRp _ | .popPsw => Timing.exactly 1 3 10
  | .pushRp _ | .pushPsw => Timing.exactly 1 3 12
  | .ret => Timing.exactly 1 3 10
  | .rc | .rnc | .rp | .rm | .rpe | .rpo | .rz | .rnz => conditionalReturnTiming taken
  | .rst _ => Timing.exactly 1 3 12
  | .xchg => Timing.exactly 1 1 4
  | .xthl => Timing.exactly 1 5 16

end Sys2Proof.Machine
end

