-- ==== Sys2Proof/Safety.lean ====
section
/-!
DEFINITION. Sys2Proof/Safety.lean: what counts as a good state and a safe run, in the terms the statements use.
-/

namespace Sys2Proof.Machine

/-- The invariant of the machine: memory is in canonical form, and `ei_delay` is 1 only while IE is 1 and the machine
is not halted (only EI sets it, 10_state.md rule R44, and the next boundary clears it). -/
def State.Inv (s : State) : Bool :=
  s.mem.wf && (!s.ctl.eiDelay || (s.ctl.ie && !s.ctl.halted))

/-- The step completes: neither a fault nor a refusal. -/
def State.Completes (s : State) : Prop := ∃ t, step s = .next t

/-- A run of `k` steps is safe: it ends in a state. -/
def SafeRun (k : Nat) (s : State) : Prop := ∃ t, Sys2Proof.core.run k s = .next t

/-! ## The boundary, in the terms of the step cycle (60_exceptions.md rule R330) -/

/-- The step is a reset (line 1). -/
def State.resets (s : State) : Prop := (s.inputs.headD StepInput.quiet).resetIn = true

/-- The step enters an interrupt (lines 3 and 5). -/
def State.enters (s : State) (src : Source) : Prop :=
  (s.inputs.headD StepInput.quiet).resetIn = false ∧ s.takeInput.latchEdge.selected = some src

/-- The state the step works on once the boundary is past (lines 1 to 4): the inputs taken, an RST 7.5 edge latched,
`ei_delay` cleared, and nothing else changed. -/
def State.pastBoundary (s : State) : State :=
  { s with
    now := s.inputs.headD StepInput.quiet
    inputs := s.inputs.tail
    tick := s.tick + 1
    ctl := { s.ctl with
      r75 := s.ctl.r75 || (s.inputs.headD StepInput.quiet).lines.r75Edge
      eiDelay := false } }

/-- The step executes an instruction (line 7). -/
def State.executes (s : State) (i : Instr) : Prop :=
  (s.inputs.headD StepInput.quiet).resetIn = false ∧ s.takeInput.latchEdge.selected = none ∧
    s.ctl.halted = false ∧ s.pastBoundary.fetch = .ok i

/-! ## The end of a run -/

/-- Nothing takes a halted machine out of the halt state at its next `k` boundaries: at none is a reset presented or a
source recognised (10_state.md rule R43, 60_exceptions.md rule R363). -/
def State.undisturbed (s : State) : Nat → Bool
  | 0 => true
  | k + 1 =>
    !(s.inputs.headD StepInput.quiet).resetIn && s.takeInput.latchEdge.selected.isNone
      && s.pastBoundary.undisturbed k

/-- The end of a run (00_scope.md rule R14): the halt state, with the environment presenting no interrupt and no reset from
then on. All the records left are looked at, then two boundaries with nothing presented, after which the boundaries are
alike. Log 34. -/
def State.Ended (s : State) : Bool := s.ctl.halted && s.undisturbed (s.inputs.length + 2)

/-! ## Numbers -/

/-- The address of the next instruction in sequence for an instruction of `n` bytes (10_state.md rule R27). -/
def State.following (s : State) (n : Nat) : Word := BitVec.ofNat 16 (s.pc.toNat + n)

/-- Whether a number below 256 has an even number of 1 bits (00_scope.md rule R10, `parity`). -/
def evenOnes (n : Nat) : Bool :=
  decide ((n % 2 + n / 2 % 2 + n / 4 % 2 + n / 8 % 2 + n / 16 % 2 + n / 32 % 2 + n / 64 % 2 + n / 128 % 2) % 2 = 0)

/-- The five flags of a result below 256, read as numbers: S, Z and P by 00_scope.md rule R10. -/
def flagsOf (result : Nat) (ac cy : Bool) : Flags :=
  { s := decide (128 ≤ result), z := decide (result = 0), ac := ac, p := evenOnes result, cy := cy }

/-- A packed-BCD byte: both digits 0 to 9. -/
def isBcd (v : Byte) : Bool := decide (v.toNat / 16 ≤ 9) && decide (v.toNat % 16 ≤ 9)

/-- The number a packed-BCD byte stands for. -/
def bcdValue (v : Byte) : Nat := 10 * (v.toNat / 16) + v.toNat % 16

/-! ## Stores -/

/-- The byte a read of `a` gives after a write of `v` there: `v` in read-write memory, else what it gave before
(20_memory.md rule R63). -/
def State.byteAfterStore (s : State) (a : Word) (v : Byte) : Byte :=
  if kindAt s.memMap a = .readWrite then v else s.memRead a

/-- The ten opcode bytes with no instruction (30_encoding.md rule R107). -/
def unassignedOpcodes : List Byte :=
  [0x08#8, 0x10#8, 0x18#8, 0x28#8, 0x38#8, 0xCB#8, 0xD9#8, 0xDD#8, 0xED#8, 0xFD#8]

/-- The addresses of the bytes an instruction stores to, each computed as its meaning computes it (20_memory.md rule R62):
none for a form that stores nothing, and for a conditional call that is not taken. -/
def storeAddresses (i : Instr) (s : State) : List Word :=
  match i with
  | .movMR _ | .mviM _ | .inrM | .dcrM => [s.hl]
  | .stax pp => [s.getPair pp]
  | .sta addr => [addr]
  | .shld addr => [addr, addr + 1]
  | .pushRp _ | .pushPsw | .call _ | .rst _ => [s.sp - 1, s.sp - 2]
  | .xthl => [s.sp + 1, s.sp]
  | .cc _ => if s.flags.holds .c then [s.sp - 1, s.sp - 2] else []
  | .cnc _ => if s.flags.holds .nc then [s.sp - 1, s.sp - 2] else []
  | .cp _ => if s.flags.holds .p then [s.sp - 1, s.sp - 2] else []
  | .cm _ => if s.flags.holds .m then [s.sp - 1, s.sp - 2] else []
  | .cpe _ => if s.flags.holds .pe then [s.sp - 1, s.sp - 2] else []
  | .cpo _ => if s.flags.holds .po then [s.sp - 1, s.sp - 2] else []
  | .cz _ => if s.flags.holds .z then [s.sp - 1, s.sp - 2] else []
  | .cnz _ => if s.flags.holds .nz then [s.sp - 1, s.sp - 2] else []
  | .aci _ | .adcR _ | .adcM | .addR _ | .addM | .adi _ | .anaR _ | .anaM | .ani _ | .cma | .cmc | .cmpR _ | .cmpM
  | .cpi _ | .daa | .dad _ | .dcrR _ | .dcx _ | .di | .ei | .hlt | .inPort _ | .inrR _ | .inx _ | .jmp _ | .jc _
  | .jnc _ | .jp _ | .jm _ | .jpe _ | .jpo _ | .jz _ | .jnz _ | .lda _ | .ldax _ | .lhld _ | .lxi _ _ | .movRR _ _
  | .movRM _ | .mviR _ _ | .nop | .oraR _ | .oraM | .ori _ | .outPort _ | .pchl | .popRp _ | .popPsw | .ral | .rar
  | .rlc | .rrc | .ret | .rc | .rnc | .rp | .rm | .rpe | .rpo | .rz | .rnz | .rim | .sbbR _ | .sbbM | .sbi _ | .sim
  | .sphl | .stc | .subR _ | .subM | .sui _ | .xchg | .xraR _ | .xraM | .xri _ => []

end Sys2Proof.Machine
end

