-- ==== Sys2Proof/Certificates/Slice0/Obligations.lean ====
section
/-!
DEFINITION. Sys2Proof/Certificates/Slice0/Obligations.lean: the statements for the provers. A statement of an instruction's result is
an equation `exec i s = .next …`, so it says that the instruction completes, what it writes, and, through the record
update, that nothing else changes. For a storing form, `{ t with mem := s.mem } = …` says it of every field but memory,
and memory is described through the read of one byte.
-/

open Sys2Proof Sys2Proof.Machine

/-! ## Encoding -/

/-- 30_encoding.md rules R91 to R99, R103, R106 (operand byte order by decision D1, log 15; which pairs PUSH, POP, LDAX
and STAX take, log 31; the encodings the spec corrected or restored, log 32): decoding gives back every well-formed
instruction, with every operand, and the bytes after it. -/
def Obligations.EncodedInstructionDecodesToItself : Prop :=
  ∀ (i : Instr) (rest : List Byte), i.wellFormed = true → decode (encode i ++ rest) = .ok (i, rest)

/-- Rules R103, R106, R110 (operand byte order by decision D1, log 15; the ten unlisted bytes by D11, log 17; the
encodings the spec corrected or restored, log 32): bytes that decode are the encoding of a well-formed instruction, so
each byte sequence has one meaning and no bit of it is dropped. -/
def Obligations.DecodedBytesAreTheEncoding : Prop :=
  ∀ (bytes : List Byte) (i : Instr) (rest : List Byte),
    decode bytes = .ok (i, rest) → i.wellFormed = true ∧ bytes = encode i ++ rest

/-- Rule R107 (decision D11, log 17): exactly the ten unlisted opcode bytes have no instruction, whatever follows them. -/
def Obligations.ExactlyTenOpcodesHaveNoInstruction : Prop :=
  ∀ (op : Byte) (rest : List Byte),
    decode (op :: rest) = .error (.unassignedOpcode op) ↔
      op = 0x08#8 ∨ op = 0x10#8 ∨ op = 0x18#8 ∨ op = 0x28#8 ∨ op = 0x38#8 ∨
      op = 0xCB#8 ∨ op = 0xD9#8 ∨ op = 0xDD#8 ∨ op = 0xED#8 ∨ op = 0xFD#8

/-- Rule R93: the length of an instruction follows from its opcode byte alone, by the rule's table. -/
def Obligations.OpcodeByteFixesTheLength : Prop :=
  ∀ (op : Byte) (rest rest' : List Byte) (i : Instr), decode (op :: rest) = .ok (i, rest') →
    rest.length + 1 = rest'.length +
      (if op ∈ [0x06#8, 0x0E#8, 0x16#8, 0x1E#8, 0x26#8, 0x2E#8, 0x36#8, 0x3E#8, 0xC6#8, 0xCE#8, 0xD3#8, 0xD6#8, 0xDB#8,
          0xDE#8, 0xE6#8, 0xEE#8, 0xF6#8, 0xFE#8] then 2
       else if op ∈ [0x01#8, 0x11#8, 0x21#8, 0x31#8, 0x22#8, 0x2A#8, 0x32#8, 0x3A#8, 0xC2#8, 0xC3#8, 0xC4#8, 0xCA#8,
          0xCC#8, 0xCD#8, 0xD2#8, 0xD4#8, 0xDA#8, 0xDC#8, 0xE2#8, 0xE4#8, 0xEA#8, 0xEC#8, 0xF2#8, 0xF4#8, 0xFA#8,
          0xFC#8] then 3
       else 1)

/-- 95_test_vectors.md section 2.8 and the map of rule R103 (operand byte order by decision D1, log 15; INR D by
90_conflicts.md C1, log 32): words written out from the spec, at least one a family. -/
def Obligations.WordsOfTheMapDecode : Prop :=
  decode [0x14#8] = .ok (.inrR .d, []) ∧ decode [0x04#8] = .ok (.inrR .b, []) ∧
  decode [0x76#8] = .ok (.hlt, []) ∧ decode [0x72#8] = .ok (.movMR .d, []) ∧
  decode [0x63#8] = .ok (.movRR .h .e, []) ∧ decode [0x3A#8, 0x34#8, 0x12#8] = .ok (.lda 0x1234#16, []) ∧
  decode [0x2A#8, 0x34#8, 0x12#8] = .ok (.lhld 0x1234#16, []) ∧
  decode [0xC3#8, 0x00#8, 0x20#8] = .ok (.jmp 0x2000#16, []) ∧
  decode [0xD3#8, 0x10#8] = .ok (.outPort 0x10#8, []) ∧ decode [0xFE#8, 0x00#8] = .ok (.cpi 0x00#8, []) ∧
  decode [0x00#8] = .ok (.nop, []) ∧ decode [0x7F#8] = .ok (.movRR .a .a, []) ∧
  decode [0xF1#8] = .ok (.popPsw, []) ∧ decode [0xFF#8] = .ok (.rst 7, []) ∧
  decode [0xAE#8] = .ok (.xraM, []) ∧ decode [0x39#8] = .ok (.dad .sp, [])

/-! ## The step -/

/-- 60_exceptions.md rule R330 lines 6 and 7 (the step cycle and the sources by decisions D14, D15, log 19; the EI delay
by D16, log 20): with no reset and no interrupt recognised (the formula of rule R340 written out) and the machine not
halted, the step is `exec` of the instruction the bytes at the pc decode to, on the state past the boundary: inputs
taken, an RST 7.5 edge latched, `ei_delay` cleared, everything else as it was. -/
def Obligations.StepRunsTheDecodedInstruction : Prop :=
  ∀ (s : State) (i : Instr) (rest : List Byte),
    let input := s.inputs.headD StepInput.quiet
    let g := s.ctl.ie && !s.ctl.eiDelay
    let s' : State :=
      { s with
        now := input
        inputs := s.inputs.tail
        tick := s.tick + 1
        ctl := { s.ctl with r75 := s.ctl.r75 || input.lines.r75Edge, eiDelay := false } }
    input.resetIn = false →
    input.lines.trap = false →
    (g && (s.ctl.r75 || input.lines.r75Edge) && !s.ctl.m75) = false →
    (g && input.lines.r65 && !s.ctl.m65) = false →
    (g && input.lines.r55 && !s.ctl.m55) = false →
    (g && input.lines.intr) = false →
    s.ctl.halted = false →
    decode [s'.fetchRead s.pc, s'.fetchRead (s.pc + 1), s'.fetchRead (s.pc + 2)] = .ok (i, rest) →
    i.wellFormed = true →
    step s = exec i s'

/-- Rule R107 (decision D11, log 17) and rule R341 (decision D21, log 24), in the step cycle of rule R330 (decision D15, log
19): a step is refused exactly when it executes and the byte fetched at the pc is one of the ten unassigned opcodes, or when
it enters INTR and the bytes supplied are neither a one-byte RST n nor a three-byte CALL; the reason says which. -/
def Obligations.StepRefusesOnlyWhatTheSpecRefuses : Prop :=
  ∀ (s : State) (r : Refusal),
    let input := s.inputs.headD StepInput.quiet
    let source := s.takeInput.latchEdge.selected
    let op := s.pastBoundary.fetchRead s.pc
    step s = .refused r ↔
      (input.resetIn = false ∧ source = none ∧ s.ctl.halted = false ∧ op ∈ unassignedOpcodes ∧
        r = .unassignedOpcode op) ∨
      (input.resetIn = false ∧ source = some .intr ∧
        (¬ ∃ n : Nat, n < 8 ∧ input.intrBytes = [BitVec.ofNat 8 (0xC7 + 8 * n)]) ∧
        (¬ ∃ lo hi : Byte, input.intrBytes = [0xCD#8, lo, hi]) ∧
        r = .intrInstructionNotModelled)

/-- The model's own placing of an instruction (log 29; the step cycle by decision D15, log 19): from any state, an
instruction placed by `withFetchWord` is the one the next step runs, with the registers, flags, SP and pc as they were. -/
def Obligations.PlacedInstructionRunsNext : Prop :=
  ∀ (s : State) (nbits w : Nat) (i : Instr), decodeTableWord nbits w = some i →
    ∃ u : State, step (s.withFetchWord nbits w) = exec i u ∧
      u.regs = s.regs ∧ u.flags = s.flags ∧ u.sp = s.sp ∧ u.pc = s.pc

/-- 60_exceptions.md rule R331 (decision D24, log 27, PRESUMED): no instruction raises an exception or is refused once
decoded, in any state. And, of the model's own choice (log 4, 5, 6), none touches the environment's inputs, the memory
map or the step index. -/
def Obligations.EveryInstructionCompletes : Prop :=
  ∀ (i : Instr) (s : State), ∃ t, exec i s = .next t ∧
    t.inputs = s.inputs ∧ t.now = s.now ∧ t.tick = s.tick ∧ t.memMap = s.memMap

/-- 95_test_vectors.md section 4, property 1 (10_state.md rules R27, R29; wrap by decision D3, log 16; JNC by
90_conflicts.md C3, log 33): every instruction but a taken transfer leaves the pc at the next instruction in sequence,
HLT included. -/
def Obligations.OnlyTransfersLeaveTheSequence : Prop :=
  ∀ (i : Instr) (s t : State), exec i s = .next t →
    (match i with
     | .jmp _ | .call _ | .ret | .pchl | .rst _ => True
     | .jc _ | .cc _ | .rc => s.flags.cy = true
     | .jnc _ | .cnc _ | .rnc => s.flags.cy = false
     | .jz _ | .cz _ | .rz => s.flags.z = true
     | .jnz _ | .cnz _ | .rnz => s.flags.z = false
     | .jpe _ | .cpe _ | .rpe => s.flags.p = true
     | .jpo _ | .cpo _ | .rpo => s.flags.p = false
     | .jm _ | .cm _ | .rm => s.flags.s = true
     | .jp _ | .cp _ | .rp => s.flags.s = false
     | _ => False) ∨
    t.pc = s.following (encode i).length

/-! ## Invariant and frames -/

/-- Every step, from any state that meets it, keeps the invariant: memory in canonical form (log 3), and `ei_delay` only
while IE is 1 and the machine runs (10_state.md rule R44, decision D16, log 20; the step cycle by D15, log 19). -/
def Obligations.EveryStepKeepsTheInvariant : Prop :=
  ∀ s t : State, s.Inv = true → step s = .next t → t.Inv = true

/-- The state after reset meets the invariant. Both parts are the model's: `ei_delay` is 0 after reset by decision D19 (log
22, PRESUMED), and memory lists nothing, so is canonical, by the model's own choice (log 3, DESIGN CHOICE; 10_state.md rule
R47 leaves the contents, `InitMem`, open). -/
def Obligations.ResetMeetsTheInvariant : Prop := State.reset.Inv = true

/-- 20_memory.md rule R62 (the stack addresses by decision D2, log 14; wrap by D3, log 16; outside read-write memory
D12, log 4): every byte of memory reads as before except those at the addresses the instruction stores to, computed as
the meaning computes them; a form that stores nothing leaves every byte. -/
def Obligations.OnlyStoredBytesOfMemoryChange : Prop :=
  ∀ (i : Instr) (s t : State) (a : Word), exec i s = .next t → a ∉ storeAddresses i s → t.memRead a = s.memRead a

/-- 10_state.md rule R37 (INR, RST and POP PSW by 90_conflicts.md C2, C4, C10, log 33; DAD by decision D8, log 13): an
instruction outside the rule's table leaves all five flags unchanged, and those of its rows that spare some flags leave
those. -/
def Obligations.FlagsChangeOnlyAsTheFlagTableSays : Prop :=
  ∀ (i : Instr) (s t : State), exec i s = .next t →
    match i with
    | .addR _ | .addM | .adcR _ | .adcM | .adi _ | .aci _ | .subR _ | .subM | .sbbR _ | .sbbM | .sui _ | .sbi _
    | .cmpR _ | .cmpM | .cpi _ | .daa | .popPsw => True
    | .anaR _ | .anaM | .ani _ => t.flags.ac = true ∧ t.flags.cy = false
    | .oraR _ | .oraM | .ori _ | .xraR _ | .xraM | .xri _ => t.flags.ac = false ∧ t.flags.cy = false
    | .inrR _ | .inrM | .dcrR _ | .dcrM => t.flags.cy = s.flags.cy
    | .dad _ | .rlc | .rrc | .ral | .rar => { t.flags with cy := s.flags.cy } = s.flags
    | .cmc => t.flags = { s.flags with cy := !s.flags.cy }
    | .stc => t.flags = { s.flags with cy := true }
    | _ => t.flags = s.flags

/-- 60_exceptions.md rules R342, R344 and 95_test_vectors.md section 4, property 14 (interrupts by decisions D14, D15,
log 19; the EI delay by D16, log 20; SIM by D18, log 21; `trap_ie` by D28, log 25; what sets and ends the halt state,
10_state.md rule R43 and 43_machine_control_io.md rule R252, by D20, log 23; all PRESUMED): which steps change which
part of the control state, over every instruction and every event. -/
def Obligations.ControlStateChangesOnlyByNamedEvents : Prop :=
  ∀ s t : State, step s = .next t →
    (t.ctl.ie ≠ s.ctl.ie → s.resets ∨ (∃ src, s.enters src) ∨ s.executes .di ∨ s.executes .ei) ∧
    ((t.ctl.m75 ≠ s.ctl.m75 ∨ t.ctl.m65 ≠ s.ctl.m65 ∨ t.ctl.m55 ≠ s.ctl.m55 ∨ t.ctl.sod ≠ s.ctl.sod) →
      s.resets ∨ s.executes .sim) ∧
    (t.ctl.r75 ≠ s.ctl.r75 →
      s.resets ∨ (s.inputs.headD StepInput.quiet).lines.r75Edge = true ∨ s.enters .rst75 ∨
        (s.executes .sim ∧ s.regs.a.getLsbD 4 = true)) ∧
    (t.ctl.trapIeValid ≠ s.ctl.trapIeValid → s.resets ∨ s.enters .trap ∨ s.executes .rim) ∧
    (t.ctl.trapIeValue ≠ s.ctl.trapIeValue → s.resets ∨ s.enters .trap) ∧
    (t.ctl.halted ≠ s.ctl.halted → s.resets ∨ (∃ src, s.enters src) ∨ s.executes .hlt) ∧
    (t.ctl.eiDelay = true → s.executes .ei)

/-! ## Reset -/

/-- 10_state.md rule R47 and 70_reset_and_hazards.md rules R380, R385 (decision D19, log 22): what the state after
reset holds where the spec gives a value, and what RIM (layout by D17, log 21) reads in every state that holds those values
in IE, the masks, the RST 7.5 latch and `trap_ie.valid`, whatever the rest of it is. -/
def Obligations.ResetLeavesTheSpecifiedControlState : Prop :=
  State.reset.pc = 0x0000#16 ∧ State.reset.ctl.ie = false ∧
  State.reset.ctl.m75 = true ∧ State.reset.ctl.m65 = true ∧ State.reset.ctl.m55 = true ∧
  State.reset.ctl.r75 = false ∧ State.reset.ctl.sod = false ∧ State.reset.ctl.halted = false ∧
  State.reset.ctl.eiDelay = false ∧ State.reset.ctl.trapIeValid = false ∧
  ∀ s : State, s.ctl.ie = false → s.ctl.m75 = true → s.ctl.m65 = true → s.ctl.m55 = true → s.ctl.r75 = false →
    s.ctl.trapIeValid = false → ∃ t, exec .rim s = .next t ∧ t.regs.a &&& 0x4F#8 = 0x07#8

/-- 70_reset_and_hazards.md rules R380, R383 (decision D19, log 22): a reset is taken before everything else, whatever
the state and the lines are; memory is unchanged. -/
def Obligations.ResetStepComesBeforeEverything : Prop :=
  ∀ s : State, (s.inputs.headD StepInput.quiet).resetIn = true →
    ∃ t, step s = .next t ∧ t.pc = 0x0000#16 ∧ t.ctl.ie = false ∧
      t.ctl.m75 = true ∧ t.ctl.m65 = true ∧ t.ctl.m55 = true ∧ t.ctl.r75 = false ∧ t.ctl.sod = false ∧
      t.ctl.halted = false ∧ t.ctl.eiDelay = false ∧ t.ctl.trapIeValid = false ∧
      t.mem = s.mem ∧ t.memMap = s.memMap ∧ t.trace = s.trace ∧ t.inputs = s.inputs.tail

/-! ## Interrupts -/

/-- 60_exceptions.md rules R330 line 3, R340, R346 (decisions D14, D15, log 19; the EI delay by D16, log 20): the source
selected is the recognised one of highest priority, TRAP whatever IE and the masks are, the others only with IE = 1 and
`ei_delay` = 0. -/
def Obligations.SelectedSourceIsTheHighestRecognised : Prop :=
  ∀ s : State, s.selected =
    if s.now.lines.trap = true then some .trap
    else if s.ctl.ie = true ∧ s.ctl.eiDelay = false then
      if s.ctl.r75 = true ∧ s.ctl.m75 = false then some .rst75
      else if s.now.lines.r65 = true ∧ s.ctl.m65 = false then some .rst65
      else if s.now.lines.r55 = true ∧ s.ctl.m55 = false then some .rst55
      else if s.now.lines.intr = true then some .intr
      else none
    else none

/-- Rule R330 lines 4 and 5, rule R351 (an entry as a step of its own by decision D15, log 19; from the halt state by D20,
log 23; both PRESUMED): where no reset is presented, a selected source is entered in a step of its own,
from the halt state too, on the state past the boundary. -/
def Obligations.StepEntersTheSelectedInterrupt : Prop :=
  ∀ (s : State) (src : Source), (s.inputs.headD StepInput.quiet).resetIn = false →
    s.takeInput.latchEdge.selected = some src → step s = s.pastBoundary.enter src

/-- Rules R335, R341, R347, R348 (decisions D14, D15, D21, log 19, 24; leaving the halt state by D20, log 23; the saved
IE by D28, log 25; SP - 1 and SP - 2 by D2, log 14; outside read-write memory, 20_memory.md rule R63, a push stores
nothing by D12, log 4; all PRESUMED): entering pushes the pc, high-order byte at SP - 1 and low-order byte at SP - 2,
goes to the source's address, resets IE, leaves the halt state, clears R75 on an RST 7.5 entry, saves IE on a TRAP
entry, and changes nothing else. -/
def Obligations.InterruptEntrySavesThePcAndNothingElse : Prop :=
  ∀ (s : State) (src : Source) (target : Word),
    ((src = .trap ∧ target = 0x0024#16) ∨ (src = .rst75 ∧ target = 0x003C#16) ∨
     (src = .rst65 ∧ target = 0x0034#16) ∨ (src = .rst55 ∧ target = 0x002C#16) ∨
     (src = .intr ∧ ∃ n : Nat, n < 8 ∧ s.now.intrBytes = [BitVec.ofNat 8 (0xC7 + 8 * n)] ∧
       target = BitVec.ofNat 16 (8 * n)) ∨
     (src = .intr ∧ ∃ lo hi : Byte, s.now.intrBytes = [0xCD#8, lo, hi] ∧
       target.toNat = 256 * hi.toNat + lo.toNat)) →
    ∃ t, s.enter src = .next t ∧
      { t with mem := s.mem } =
        { s with
          sp := s.sp - 2
          pc := target
          ctl := { s.ctl with
            ie := false
            halted := false
            r75 := if src = .rst75 then false else s.ctl.r75
            trapIeValid := if src = .trap then true else s.ctl.trapIeValid
            trapIeValue := if src = .trap then s.ctl.ie else s.ctl.trapIeValue } } ∧
      t.memRead (s.sp - 1) = s.byteAfterStore (s.sp - 1) (BitVec.ofNat 8 (s.pc.toNat / 256)) ∧
      t.memRead (s.sp - 2) = s.byteAfterStore (s.sp - 2) (BitVec.ofNat 8 (s.pc.toNat % 256)) ∧
      ∀ a : Word, a ≠ s.sp - 1 → a ≠ s.sp - 2 → t.memRead a = s.memRead a

/-- Rule R341 (decision D21, log 24): an INTR acknowledge answered with anything but a one-byte RST n or a three-byte CALL
is refused. -/
def Obligations.OtherIntrAnswersAreRefused : Prop :=
  ∀ s : State,
    (¬ ∃ n : Nat, n < 8 ∧ s.now.intrBytes = [BitVec.ofNat 8 (0xC7 + 8 * n)]) →
    (¬ ∃ lo hi : Byte, s.now.intrBytes = [0xCD#8, lo, hi]) →
    s.enter .intr = .refused .intrInstructionNotModelled

/-- 10_state.md rule R43 and rule R330 line 6 (the step cycle by decision D15, log 19; the idle step by D20, log 23; both
PRESUMED): halted, with nothing recognised and no reset, the step changes nothing
but what the boundary changes. -/
def Obligations.HaltedMachineIdles : Prop :=
  ∀ s : State, (s.inputs.headD StepInput.quiet).resetIn = false → s.takeInput.latchEdge.selected = none →
    s.ctl.halted = true → step s = .next s.pastBoundary

/-- 10_state.md rule R44 and 70_reset_and_hazards.md rule R391 (decision D16, log 20; the step cycle by D15, log 19):
after EI no maskable source is selected at the boundary that follows, whatever the environment presents, and the delay
ends with that boundary. -/
def Obligations.EiDefersMaskableInterruptsByOneInstruction : Prop :=
  ∀ s t : State, s.executes .ei → step s = .next t →
    t.ctl.ie = true ∧
    (t.takeInput.latchEdge.selected = none ∨ t.takeInput.latchEdge.selected = some .trap) ∧
    t.pastBoundary.ctl.eiDelay = false

/-- Rule R337 (decision D14, log 19; bit 4 of SIM by D18, log 21): an RST 7.5 edge is latched whatever IE and M75 are,
and the latch stays until the entry, SIM with bit 4, or reset. -/
def Obligations.Rst75EdgeStaysLatched : Prop :=
  ∀ s t : State, step s = .next t → ¬ s.resets → ¬ s.enters .rst75 →
    ¬ (s.executes .sim ∧ s.regs.a.getLsbD 4 = true) →
    (s.inputs.headD StepInput.quiet).lines.r75Edge = true ∨ s.ctl.r75 = true →
    t.ctl.r75 = true

/-! ## Arithmetic -/

/-- 40_arithmetic.md rules R121 to R126 (flags by decisions D5, D6, log 11): the six additions write A with the sum modulo
256, all five flags, and the pc; CY is the carry out of bit 7, AC the carry out of bit 3. -/
def Obligations.AdditionsWriteTheSumAndAllFlags : Prop :=
  ∀ s : State,
    let a := s.regs.a.toNat
    let added (x c n : Nat) : State :=
      { s with
        regs := { s.regs with a := BitVec.ofNat 8 (a + x + c) }
        flags := flagsOf ((a + x + c) % 256) (decide (16 ≤ a % 16 + x % 16 + c)) (decide (256 ≤ a + x + c))
        pc := s.following n }
    (∀ r, exec (.addR r) s = .next (added (s.getReg r).toNat 0 1)) ∧
    exec .addM s = .next (added (s.memRead s.hl).toNat 0 1) ∧
    (∀ d, exec (.adi d) s = .next (added d.toNat 0 2)) ∧
    (∀ r, exec (.adcR r) s = .next (added (s.getReg r).toNat s.flags.cy.toNat 1)) ∧
    exec .adcM s = .next (added (s.memRead s.hl).toNat s.flags.cy.toNat 1) ∧
    ∀ d, exec (.aci d) s = .next (added d.toNat s.flags.cy.toNat 2)

/-- 40_arithmetic.md rules R135 to R140 (flags by decisions D5, D7, log 10, 11): the six subtractions write A with the
difference modulo 256, all five flags, and the pc; CY is the borrow, AC is 1 when the low nibble does not borrow. -/
def Obligations.SubtractionsWriteTheDifferenceAndAllFlags : Prop :=
  ∀ s : State,
    let a := s.regs.a.toNat
    let less (x c n : Nat) : State :=
      { s with
        regs := { s.regs with a := BitVec.ofNat 8 (a + 512 - x - c) }
        flags := flagsOf ((a + 512 - x - c) % 256) (decide (x % 16 + c ≤ a % 16)) (decide (a < x + c))
        pc := s.following n }
    (∀ r, exec (.subR r) s = .next (less (s.getReg r).toNat 0 1)) ∧
    exec .subM s = .next (less (s.memRead s.hl).toNat 0 1) ∧
    (∀ d, exec (.sui d) s = .next (less d.toNat 0 2)) ∧
    (∀ r, exec (.sbbR r) s = .next (less (s.getReg r).toNat s.flags.cy.toNat 1)) ∧
    exec .sbbM s = .next (less (s.memRead s.hl).toNat s.flags.cy.toNat 1) ∧
    ∀ d, exec (.sbi d) s = .next (less d.toNat s.flags.cy.toNat 2)

/-- 41_logical.md rules R166 to R168 (flags by decisions D5, D7, log 10, 11; the operand of CMP M and CPI by
90_conflicts.md C5, log 33): a compare writes the flags alone; CY = 1 exactly when A is below the operand, Z = 1 exactly
when they are equal, both as unsigned numbers. -/
def Obligations.ComparesWriteTheFlagsAlone : Prop :=
  ∀ s : State,
    let a := s.regs.a.toNat
    let compared (x n : Nat) : State :=
      { s with
        flags :=
          { s := decide (128 ≤ (a + 256 - x) % 256)
            z := decide (a = x)
            ac := decide (x % 16 ≤ a % 16)
            p := evenOnes ((a + 256 - x) % 256)
            cy := decide (a < x) }
        pc := s.following n }
    (∀ r, exec (.cmpR r) s = .next (compared (s.getReg r).toNat 1)) ∧
    exec .cmpM s = .next (compared (s.memRead s.hl).toNat 1) ∧
    ∀ d, exec (.cpi d) s = .next (compared d.toNat 2)

/-- 40_arithmetic.md rules R129, R132 (flags by decisions D5 to D7, log 10, 11; INR's P by 90_conflicts.md C2, log 33):
INR R and DCR R write the one register, wrapping, and S, Z, AC, P; CY stays. -/
def Obligations.RegisterIncrementAndDecrement : Prop :=
  ∀ (s : State) (r : Reg),
    let v := (s.getReg r).toNat
    exec (.inrR r) s = .next
      { s.setReg r (BitVec.ofNat 8 (v + 1)) with
        flags := flagsOf ((v + 1) % 256) (decide (v % 16 = 15)) s.flags.cy
        pc := s.following 1 } ∧
    exec (.dcrR r) s = .next
      { s.setReg r (BitVec.ofNat 8 (v + 255)) with
        flags := flagsOf ((v + 255) % 256) (decide (v % 16 ≠ 0)) s.flags.cy
        pc := s.following 1 }

/-- 40_arithmetic.md rules R130, R133 (flags by decisions D5 to D7, log 10, 11; INR's P by 90_conflicts.md C2, log 33;
outside read-write memory, 20_memory.md rule R63, the store changes nothing by D12, log 4, PRESUMED): INR M and DCR M
write the one byte at HL and S, Z, AC, P; CY and every other byte and register stay. -/
def Obligations.MemoryIncrementAndDecrement : Prop :=
  ∀ s : State,
    let v := (s.memRead s.hl).toNat
    (∃ t, exec .inrM s = .next t ∧
      { t with mem := s.mem } =
        { s with
          flags := flagsOf ((v + 1) % 256) (decide (v % 16 = 15)) s.flags.cy
          pc := s.following 1 } ∧
      t.memRead s.hl = s.byteAfterStore s.hl (BitVec.ofNat 8 (v + 1)) ∧
      ∀ a : Word, a ≠ s.hl → t.memRead a = s.memRead a) ∧
    ∃ t, exec .dcrM s = .next t ∧
      { t with mem := s.mem } =
        { s with
          flags := flagsOf ((v + 255) % 256) (decide (v % 16 ≠ 0)) s.flags.cy
          pc := s.following 1 } ∧
      t.memRead s.hl = s.byteAfterStore s.hl (BitVec.ofNat 8 (v + 255)) ∧
      ∀ a : Word, a ≠ s.hl → t.memRead a = s.memRead a

/-- 40_arithmetic.md rules R131, R134: INX and DCX change the pair, as a 16-bit number that wraps, and no flag; with
their encodings (BC 00, DE 01, HL 10, SP 11 in bits 5:4) and timing. -/
def Obligations.PairIncrementAndDecrement : Prop :=
  (∀ (s : State) (pp : RegPair),
    exec (.inx pp) s = .next
      { s.setPair pp (BitVec.ofNat 16 ((s.getPair pp).toNat + 1)) with pc := s.following 1 } ∧
    exec (.dcx pp) s = .next
      { s.setPair pp (BitVec.ofNat 16 ((s.getPair pp).toNat + 65535)) with pc := s.following 1 }) ∧
  [RegPair.bc, .de, .hl, .sp].map (fun pp => encode (.inx pp)) = [[0x03#8], [0x13#8], [0x23#8], [0x33#8]] ∧
  [RegPair.bc, .de, .hl, .sp].map (fun pp => encode (.dcx pp)) = [[0x0B#8], [0x1B#8], [0x2B#8], [0x3B#8]] ∧
  ∀ (pp : RegPair) (taken : Bool), timing (.inx pp) taken = Timing.exactly 1 1 6 ∧
    timing (.dcx pp) taken = Timing.exactly 1 1 6

/-- 40_arithmetic.md rule R128 (decision D8, log 13): DAD adds a pair to HL modulo 65536 and writes CY with the carry
out of bit 15, set or reset; the other flags, the pair (unless it is HL) and everything else stay. -/
def Obligations.DadAddsToHlAndWritesOnlyCarry : Prop :=
  ∀ (s : State) (pp : RegPair),
    let t := 256 * s.regs.h.toNat + s.regs.l.toNat + (s.getPair pp).toNat
    exec (.dad pp) s = .next
      { s with
        regs := { s.regs with h := BitVec.ofNat 8 (t / 256), l := BitVec.ofNat 8 t }
        flags := { s.flags with cy := decide (65536 ≤ t) }
        pc := s.following 1 }

/-- 40_arithmetic.md rule R127 (decision D9, log 12): what DAA does for all 256 x 2 x 2 inputs; CY is never cleared. -/
def Obligations.DaaCorrectsEveryInput : Prop :=
  ∀ s : State,
    let a := s.regs.a.toNat
    let low := decide (9 < a % 16) || s.flags.ac
    let high := decide (9 < a / 16) || s.flags.cy || (decide (9 ≤ a / 16) && decide (9 < a % 16))
    let sum := a + (if low then 6 else 0) + (if high then 96 else 0)
    exec .daa s = .next
      { s with
        regs := { s.regs with a := BitVec.ofNat 8 sum }
        flags := flagsOf (sum % 256) (decide (9 < a % 16)) high
        pc := s.following 1 }

/-- 95_test_vectors.md section 4, property 15 (decision D9, log 12): DAA after an addition of two packed-BCD bytes, with
or without a carry in, gives the packed-BCD sum modulo 100 in A and the decimal carry in CY. -/
def Obligations.DaaAfterAdditionGivesTheDecimalSum : Prop :=
  ∀ s : State,
    let decimal (i : Instr) (y : Byte) (c : Nat) : Prop :=
      isBcd s.regs.a = true → isBcd y = true →
        ∃ t u, exec i s = .next t ∧ exec .daa t = .next u ∧ isBcd u.regs.a = true ∧
          bcdValue u.regs.a + 100 * u.flags.cy.toNat = bcdValue s.regs.a + bcdValue y + c
    (∀ r, decimal (.addR r) (s.getReg r) 0) ∧ decimal .addM (s.memRead s.hl) 0 ∧ (∀ d, decimal (.adi d) d 0) ∧
    (∀ r, decimal (.adcR r) (s.getReg r) s.flags.cy.toNat) ∧
    decimal .adcM (s.memRead s.hl) s.flags.cy.toNat ∧ ∀ d, decimal (.aci d) d s.flags.cy.toNat

/-! ## Logic, rotates, carry -/

/-- 41_logical.md rules R160 to R163, R169 to R171, R177 to R179 (S, Z, P by decision D5, log 11): the nine bitwise
operations act on each bit of A and the operand; CY is reset, AC is set by AND and reset by OR and exclusive OR. -/
def Obligations.BitwiseOperationsActOnEachBit : Prop :=
  ∀ s : State,
    let bitwise (i : Instr) (op : Bool → Bool → Bool) (x : Byte) (ac : Bool) (n : Nat) : Prop :=
      ∃ v : Byte, (∀ k, k < 8 → v.getLsbD k = op (s.regs.a.getLsbD k) (x.getLsbD k)) ∧
        exec i s = .next
          { s with
            regs := { s.regs with a := v }
            flags := flagsOf v.toNat ac false
            pc := s.following n }
    (∀ r, bitwise (.anaR r) Bool.and (s.getReg r) true 1) ∧ bitwise .anaM Bool.and (s.memRead s.hl) true 1 ∧
    (∀ d, bitwise (.ani d) Bool.and d true 2) ∧
    (∀ r, bitwise (.oraR r) Bool.or (s.getReg r) false 1) ∧ bitwise .oraM Bool.or (s.memRead s.hl) false 1 ∧
    (∀ d, bitwise (.ori d) Bool.or d false 2) ∧
    (∀ r, bitwise (.xraR r) Bool.xor (s.getReg r) false 1) ∧ bitwise .xraM Bool.xor (s.memRead s.hl) false 1 ∧
    ∀ d, bitwise (.xri d) Bool.xor d false 2

/-- 41_logical.md rules R164, R165, R176: CMA inverts A (to 255 - A) and writes no flag; CMC complements CY and STC
sets it, and nothing else changes; with their encodings and timing. -/
def Obligations.ComplementAndCarryInstructions : Prop :=
  (∀ s : State,
    exec .cma s = .next
      { s with regs := { s.regs with a := BitVec.ofNat 8 (255 - s.regs.a.toNat) }, pc := s.following 1 } ∧
    exec .cmc s = .next { s with flags := { s.flags with cy := !s.flags.cy }, pc := s.following 1 } ∧
    exec .stc s = .next { s with flags := { s.flags with cy := true }, pc := s.following 1 }) ∧
  encode .cma = [0x2F#8] ∧ encode .cmc = [0x3F#8] ∧ encode .stc = [0x37#8] ∧
  ∀ taken : Bool, timing .cma taken = Timing.exactly 1 1 4 ∧ timing .cmc taken = Timing.exactly 1 1 4 ∧
    timing .stc taken = Timing.exactly 1 1 4

/-- 41_logical.md rules R172 to R175: the four rotates move A by one bit, bit by bit, write CY with the bit shifted out,
and change no other flag and nothing else; with their encodings and timing. -/
def Obligations.RotatesMoveAByOneBit : Prop :=
  (∀ s : State,
    let rotated (i : Instr) (bit : Nat → Bool) (out : Bool) : Prop :=
      ∃ v : Byte, (∀ k, k < 8 → v.getLsbD k = bit k) ∧
        exec i s = .next
          { s with
            regs := { s.regs with a := v }
            flags := { s.flags with cy := out }
            pc := s.following 1 }
    rotated .ral (fun k => if k = 0 then s.flags.cy else s.regs.a.getLsbD (k - 1)) (s.regs.a.getLsbD 7) ∧
    rotated .rar (fun k => if k = 7 then s.flags.cy else s.regs.a.getLsbD (k + 1)) (s.regs.a.getLsbD 0) ∧
    rotated .rlc (fun k => s.regs.a.getLsbD ((k + 7) % 8)) (s.regs.a.getLsbD 7) ∧
    rotated .rrc (fun k => s.regs.a.getLsbD ((k + 1) % 8)) (s.regs.a.getLsbD 0)) ∧
  encode .ral = [0x17#8] ∧ encode .rar = [0x1F#8] ∧ encode .rlc = [0x07#8] ∧ encode .rrc = [0x0F#8] ∧
  ∀ taken : Bool, timing .ral taken = Timing.exactly 1 1 4 ∧ timing .rar taken = Timing.exactly 1 1 4 ∧
    timing .rlc taken = Timing.exactly 1 1 4 ∧ timing .rrc taken = Timing.exactly 1 1 4

/-! ## Branches -/

/-- 42_branch.md rules R200, R210 to R219 (JNC by 90_conflicts.md C3, log 33; wrap by decision D3, log 16): a jump goes
to its address when its condition holds of the flags as they stand, else to the next instruction; PCHL goes to HL;
nothing else changes. -/
def Obligations.JumpsGoWhereTheirConditionSays : Prop :=
  ∀ (s : State) (addr : Word),
    let jumped (taken : Bool) : State := { s with pc := if taken then addr else s.following 3 }
    exec (.jmp addr) s = .next (jumped true) ∧
    exec (.jc addr) s = .next (jumped s.flags.cy) ∧ exec (.jnc addr) s = .next (jumped !s.flags.cy) ∧
    exec (.jp addr) s = .next (jumped !s.flags.s) ∧ exec (.jm addr) s = .next (jumped s.flags.s) ∧
    exec (.jpe addr) s = .next (jumped s.flags.p) ∧ exec (.jpo addr) s = .next (jumped !s.flags.p) ∧
    exec (.jz addr) s = .next (jumped s.flags.z) ∧ exec (.jnz addr) s = .next (jumped !s.flags.z) ∧
    exec .pchl s = .next { s with pc := BitVec.ofNat 16 (256 * s.regs.h.toNat + s.regs.l.toNat) }

/-- 42_branch.md rules R200 to R209, R229 (stack by decision D2, log 14; wrap by D3, log 16; RST's flags by
90_conflicts.md C4, log 33; outside read-write memory, 20_memory.md rule R63, a push stores nothing by D12, log 4,
PRESUMED): a taken call, and RST n as a one-byte call of 8 n, push the address of the next instruction, high-order byte
at SP - 1, low-order byte at SP - 2, lower SP by 2 and go to the target; a call not taken changes the pc alone; no flag
and no interrupt state changes. -/
def Obligations.CallsPushTheReturnAddress : Prop :=
  ∀ (s : State) (addr : Word),
    let called (i : Instr) (taken : Bool) (n : Nat) (target : Word) : Prop :=
      ∃ t, exec i s = .next t ∧
        if taken = true then
          { t with mem := s.mem } = { s with sp := s.sp - 2, pc := target } ∧
          t.memRead (s.sp - 1) = s.byteAfterStore (s.sp - 1) (BitVec.ofNat 8 ((s.following n).toNat / 256)) ∧
          t.memRead (s.sp - 2) = s.byteAfterStore (s.sp - 2) (BitVec.ofNat 8 ((s.following n).toNat % 256)) ∧
          ∀ a : Word, a ≠ s.sp - 1 → a ≠ s.sp - 2 → t.memRead a = s.memRead a
        else t = { s with pc := s.following n }
    called (.call addr) true 3 addr ∧
    called (.cc addr) s.flags.cy 3 addr ∧ called (.cnc addr) (!s.flags.cy) 3 addr ∧
    called (.cp addr) (!s.flags.s) 3 addr ∧ called (.cm addr) s.flags.s 3 addr ∧
    called (.cpe addr) s.flags.p 3 addr ∧ called (.cpo addr) (!s.flags.p) 3 addr ∧
    called (.cz addr) s.flags.z 3 addr ∧ called (.cnz addr) (!s.flags.z) 3 addr ∧
    ∀ n : BitVec 3, called (.rst n) true 1 (BitVec.ofNat 16 (8 * n.toNat))

/-- 42_branch.md rules R200, R220 to R228 (stack by decision D2, log 14; wrap by D3, log 16): a taken return loads the
pc from the two bytes on top of the stack, low-order byte at SP, and raises SP by 2; one not taken goes to the next
instruction; nothing else changes, the Interrupt Enable flip-flop included. -/
def Obligations.ReturnsPopThePc : Prop :=
  ∀ s : State,
    let top := BitVec.ofNat 16 (256 * (s.memRead (s.sp + 1)).toNat + (s.memRead s.sp).toNat)
    let returned (taken : Bool) : State :=
      { s with
        sp := if taken then s.sp + 2 else s.sp
        pc := if taken then top else s.following 1 }
    exec .ret s = .next (returned true) ∧
    exec .rc s = .next (returned s.flags.cy) ∧ exec .rnc s = .next (returned !s.flags.cy) ∧
    exec .rp s = .next (returned !s.flags.s) ∧ exec .rm s = .next (returned s.flags.s) ∧
    exec .rpe s = .next (returned s.flags.p) ∧ exec .rpo s = .next (returned !s.flags.p) ∧
    exec .rz s = .next (returned s.flags.z) ∧ exec .rnz s = .next (returned !s.flags.z)

/-- 95_test_vectors.md section 4, property 11 (42_branch.md rules R201, R220; stack by decision D2, log 14): in
read-write stack memory, CALL and then RET restore SP, every register and every flag, and go on after the CALL. -/
def Obligations.CallThenReturnComesBack : Prop :=
  ∀ (s : State) (addr : Word), kindAt s.memMap (s.sp - 1) = .readWrite → kindAt s.memMap (s.sp - 2) = .readWrite →
    ∃ t u, exec (.call addr) s = .next t ∧ exec .ret t = .next u ∧
      { u with mem := s.mem } = { s with pc := s.following 3 }

/-! ## Machine control and input/output -/

/-- 43_machine_control_io.md rules R250, R251, R252, R254 (the EI delay by decision D16, log 20; the halt state by D20,
log 23): DI resets IE, EI sets IE and `ei_delay`, HLT sets `halted`, NOP does nothing; each goes on to the next
instruction and changes nothing else. -/
def Obligations.ControlInstructionsWriteTheirOneFlipFlop : Prop :=
  ∀ s : State,
    exec .di s = .next { s with ctl := { s.ctl with ie := false }, pc := s.following 1 } ∧
    exec .ei s = .next { s with ctl := { s.ctl with ie := true, eiDelay := true }, pc := s.following 1 } ∧
    exec .hlt s = .next { s with ctl := { s.ctl with halted := true }, pc := s.following 1 } ∧
    exec .nop s = .next { s with pc := s.following 1 }

/-- 43_machine_control_io.md rules R253, R255 (decision D13, log 7): IN writes A with the one byte the environment
presents, or, where nothing is known of it, any byte; OUT sends A; each appends its event; no flag changes. -/
def Obligations.InputAndOutputAreOneEventEach : Prop :=
  ∀ (s : State) (port : Byte),
    (∃ v : Byte, (∀ x, s.now.ioRead = some x → v = x) ∧ (s.now.ioRead = none → v = Config.ioRead s.tick port) ∧
      exec (.inPort port) s = .next
        { s with
          regs := { s.regs with a := v }
          trace := s.trace ++ [.read port v]
          pc := s.following 2 }) ∧
    exec (.outPort port) s = .next
      { s with trace := s.trace ++ [.write port s.regs.a], pc := s.following 2 }

/-- 43_machine_control_io.md rule R256 (decisions D17, D28, log 21, 25; an unknown SID level is a free value, log 7):
the eight bits RIM reads into A, and that it clears `trap_ie.valid` and changes no other state. -/
def Obligations.RimReadsTheInterruptStatus : Prop :=
  ∀ s : State, ∃ v : Byte,
    v.getLsbD 0 = s.ctl.m55 ∧ v.getLsbD 1 = s.ctl.m65 ∧ v.getLsbD 2 = s.ctl.m75 ∧
    v.getLsbD 3 = (if s.ctl.trapIeValid = true then s.ctl.trapIeValue else s.ctl.ie) ∧
    v.getLsbD 4 = s.now.lines.r55 ∧ v.getLsbD 5 = s.now.lines.r65 ∧ v.getLsbD 6 = s.ctl.r75 ∧
    (∀ x, s.now.sid = some x → v.getLsbD 7 = x) ∧ (s.now.sid = none → v.getLsbD 7 = Config.sid s.tick) ∧
    exec .rim s = .next
      { s with
        regs := { s.regs with a := v }
        ctl := { s.ctl with trapIeValid := false }
        pc := s.following 1 }

/-- 43_machine_control_io.md rule R257 (decision D18, log 21): the three independent parts of SIM, each under its own
enable bit of A; A, IE, the flags and everything else stay. -/
def Obligations.SimSetsMasksLatchAndSerialOutput : Prop :=
  ∀ s : State,
    let a := s.regs.a.toNat
    ∃ c : Control, exec .sim s = .next { s with ctl := c, pc := s.following 1 } ∧
      (if a / 8 % 2 = 1 then
        c.m75 = decide (a / 4 % 2 = 1) ∧ c.m65 = decide (a / 2 % 2 = 1) ∧ c.m55 = decide (a % 2 = 1)
       else c.m75 = s.ctl.m75 ∧ c.m65 = s.ctl.m65 ∧ c.m55 = s.ctl.m55) ∧
      c.r75 = (s.ctl.r75 && decide (a / 16 % 2 = 0)) ∧
      c.sod = (if a / 64 % 2 = 1 then decide (128 ≤ a) else s.ctl.sod) ∧
      c.ie = s.ctl.ie ∧ c.halted = s.ctl.halted ∧ c.eiDelay = s.ctl.eiDelay ∧
      c.trapIeValid = s.ctl.trapIeValid ∧ c.trapIeValue = s.ctl.trapIeValue

/-! ## Data transfer -/

/-- 44_data_transfer.md rules R281, R283, R284 (operand byte order by decision D1, wrap by D3, log 15, 16): LDA loads A,
LHLD loads L from the address and H from the next one modulo 65536, LXI loads a pair, its low-order register from byte 2
and its high-order one from byte 3; no flag changes. Of every form, the bytes that decode to it. -/
def Obligations.DirectLoadsAndImmediatePairs : Prop :=
  ∀ (s : State) (addr : Word),
    exec (.lda addr) s = .next
      { s with regs := { s.regs with a := s.memRead addr }, pc := s.following 3 } ∧
    exec (.lhld addr) s = .next
      { s with
        regs := { s.regs with l := s.memRead addr, h := s.memRead (BitVec.ofNat 16 (addr.toNat + 1)) }
        pc := s.following 3 } ∧
    ∀ lo hi : Byte,
      exec (.lxi .bc (wordOf hi lo)) s = .next
        { s with regs := { s.regs with b := hi, c := lo }, pc := s.following 3 } ∧
      exec (.lxi .de (wordOf hi lo)) s = .next
        { s with regs := { s.regs with d := hi, e := lo }, pc := s.following 3 } ∧
      exec (.lxi .hl (wordOf hi lo)) s = .next
        { s with regs := { s.regs with h := hi, l := lo }, pc := s.following 3 } ∧
      exec (.lxi .sp (wordOf hi lo)) s = .next
        { s with sp := BitVec.ofNat 16 (256 * hi.toNat + lo.toNat), pc := s.following 3 } ∧
      decode [0x01#8, lo, hi] = .ok (.lxi .bc (wordOf hi lo), []) ∧
      decode [0x11#8, lo, hi] = .ok (.lxi .de (wordOf hi lo), []) ∧
      decode [0x21#8, lo, hi] = .ok (.lxi .hl (wordOf hi lo), []) ∧
      decode [0x31#8, lo, hi] = .ok (.lxi .sp (wordOf hi lo), []) ∧
      decode [0x3A#8, lo, hi] = .ok (.lda (BitVec.ofNat 16 (256 * hi.toNat + lo.toNat)), []) ∧
      decode [0x2A#8, lo, hi] = .ok (.lhld (BitVec.ofNat 16 (256 * hi.toNat + lo.toNat)), [])

/-- 44_data_transfer.md rules R282, R285, R287, R288, R291, R294: LDAX, MOV Rd,Rs, MOV Rd,M, MVI R, SPHL and XCHG copy what
they name, the address formed from the registers as they were, and change nothing else; with their encodings and timing. The
encodings of LDAX and of the MOV table are the spec's restorations (90_conflicts.md C9, 30_encoding.md rule R105; log 32,
DEDUCED). -/
def Obligations.MovesCopyWhatTheyName : Prop :=
  (∀ s : State,
    let hl := BitVec.ofNat 16 (256 * s.regs.h.toNat + s.regs.l.toNat)
    exec (.ldax .bc) s = .next
      { s with
        regs := { s.regs with a := s.memRead (BitVec.ofNat 16 (256 * s.regs.b.toNat + s.regs.c.toNat)) }
        pc := s.following 1 } ∧
    exec (.ldax .de) s = .next
      { s with
        regs := { s.regs with a := s.memRead (BitVec.ofNat 16 (256 * s.regs.d.toNat + s.regs.e.toNat)) }
        pc := s.following 1 } ∧
    (∀ rd rs, exec (.movRR rd rs) s = .next { s.setReg rd (s.getReg rs) with pc := s.following 1 }) ∧
    (∀ rd, exec (.movRM rd) s = .next { s.setReg rd (s.memRead hl) with pc := s.following 1 }) ∧
    (∀ r d, exec (.mviR r d) s = .next { s.setReg r d with pc := s.following 2 }) ∧
    exec .sphl s = .next { s with sp := hl, pc := s.following 1 } ∧
    exec .xchg s = .next
      { s with
        regs := { s.regs with h := s.regs.d, l := s.regs.e, d := s.regs.h, e := s.regs.l }
        pc := s.following 1 }) ∧
  encode (.ldax .bc) = [0x0A#8] ∧ encode (.ldax .de) = [0x1A#8] ∧
  (∀ rd rs, encode (.movRR rd rs) = [BitVec.ofNat 8 (0x40 + 8 * rd.code.toNat + rs.code.toNat)]) ∧
  (∀ rd, encode (.movRM rd) = [BitVec.ofNat 8 (0x46 + 8 * rd.code.toNat)]) ∧
  (∀ r d, encode (.mviR r d) = [BitVec.ofNat 8 (0x06 + 8 * r.code.toNat), d]) ∧
  encode .sphl = [0xF9#8] ∧ encode .xchg = [0xEB#8] ∧
  ∀ taken : Bool,
    timing (.ldax .bc) taken = Timing.exactly 1 2 7 ∧ timing (.ldax .de) taken = Timing.exactly 1 2 7 ∧
    (∀ rd rs, timing (.movRR rd rs) taken = Timing.exactly 1 1 4) ∧
    (∀ rd, timing (.movRM rd) taken = Timing.exactly 1 2 7) ∧
    (∀ r d, timing (.mviR r d) taken = Timing.exactly 2 2 7) ∧
    timing .sphl taken = Timing.exactly 1 1 6 ∧ timing .xchg taken = Timing.exactly 1 1 4

/-- 44_data_transfer.md rules R286, R289, R293: MOV M,Rs, MVI M and STAX store one byte, at the address HL, BC or DE
holds, and change nothing else; STAX has BC and DE only; with their encodings and timing. Two codes of MOV M,Rs are the
spec's restorations (30_encoding.md rule R105; log 32, DEDUCED), and a store outside read-write memory changes nothing
(20_memory.md rule R63, decision D12; log 4, PRESUMED). -/
def Obligations.IndirectStoresWriteOneByte : Prop :=
  (∀ s : State,
    let hl := BitVec.ofNat 16 (256 * s.regs.h.toNat + s.regs.l.toNat)
    let stored (i : Instr) (at_ : Word) (v : Byte) (n : Nat) : Prop :=
      ∃ t, exec i s = .next t ∧ { t with mem := s.mem } = { s with pc := s.following n } ∧
        t.memRead at_ = s.byteAfterStore at_ v ∧ ∀ a : Word, a ≠ at_ → t.memRead a = s.memRead a
    (∀ rs, stored (.movMR rs) hl (s.getReg rs) 1) ∧ (∀ d, stored (.mviM d) hl d 2) ∧
    stored (.stax .bc) (BitVec.ofNat 16 (256 * s.regs.b.toNat + s.regs.c.toNat)) s.regs.a 1 ∧
    stored (.stax .de) (BitVec.ofNat 16 (256 * s.regs.d.toNat + s.regs.e.toNat)) s.regs.a 1) ∧
  (∀ rs, encode (.movMR rs) = [BitVec.ofNat 8 (0x70 + rs.code.toNat)]) ∧
  (∀ d, encode (.mviM d) = [0x36#8, d]) ∧ encode (.stax .bc) = [0x02#8] ∧ encode (.stax .de) = [0x12#8] ∧
  (∀ pp, (Instr.stax pp).wellFormed = true ↔ pp = .bc ∨ pp = .de) ∧
  ∀ taken : Bool, (∀ rs, timing (.movMR rs) taken = Timing.exactly 1 2 7) ∧
    (∀ d, timing (.mviM d) taken = Timing.exactly 2 3 10) ∧
    timing (.stax .bc) taken = Timing.exactly 1 2 7 ∧ timing (.stax .de) taken = Timing.exactly 1 2 7

/-- 44_data_transfer.md rules R290, R292 (operand byte order by decision D1, wrap by D3, log 15, 16; outside read-write
memory, 20_memory.md rule R63, a store changes nothing by D12, log 4, PRESUMED): STA stores A at the address; SHLD
stores L at the address and H at the next one modulo 65536; nothing else changes. -/
def Obligations.DirectStoresWriteTheirBytes : Prop :=
  ∀ (s : State) (addr : Word),
    let next := BitVec.ofNat 16 (addr.toNat + 1)
    (∃ t, exec (.sta addr) s = .next t ∧ { t with mem := s.mem } = { s with pc := s.following 3 } ∧
      t.memRead addr = s.byteAfterStore addr s.regs.a ∧ ∀ a : Word, a ≠ addr → t.memRead a = s.memRead a) ∧
    ∃ t, exec (.shld addr) s = .next t ∧ { t with mem := s.mem } = { s with pc := s.following 3 } ∧
      t.memRead addr = s.byteAfterStore addr s.regs.l ∧ t.memRead next = s.byteAfterStore next s.regs.h ∧
      ∀ a : Word, a ≠ addr → a ≠ next → t.memRead a = s.memRead a

/-! ## Stack -/

/-- 45_stack.md rules R312, R313 (stack by decision D2, flag byte by D10, log 14, 18, 8; wrap by D3, log 16; outside
read-write memory, 20_memory.md rule R63, a push stores nothing by D12, log 4, PRESUMED): PUSH stores the high-order
byte at SP - 1 and the low-order byte at SP - 2 and lowers SP by 2; for PSW the high-order byte is A and the low-order
byte holds S, Z, AC, P, CY in bits 7, 6, 4, 2, 0, its other bits being the draws; registers and flags stay. -/
def Obligations.PushStoresHighThenLow : Prop :=
  ∀ s : State,
    let pushed (i : Instr) (hi : Byte) (low : Byte → Prop) : Prop :=
      ∃ t lo, exec i s = .next t ∧ low lo ∧
        { t with mem := s.mem } = { s with sp := s.sp - 2, pc := s.following 1 } ∧
        t.memRead (s.sp - 1) = s.byteAfterStore (s.sp - 1) hi ∧
        t.memRead (s.sp - 2) = s.byteAfterStore (s.sp - 2) lo ∧
        ∀ a : Word, a ≠ s.sp - 1 → a ≠ s.sp - 2 → t.memRead a = s.memRead a
    pushed (.pushRp .bc) s.regs.b (fun lo => lo = s.regs.c) ∧
    pushed (.pushRp .de) s.regs.d (fun lo => lo = s.regs.e) ∧
    pushed (.pushRp .hl) s.regs.h (fun lo => lo = s.regs.l) ∧
    pushed .pushPsw s.regs.a (fun lo =>
      lo.getLsbD 7 = s.flags.s ∧ lo.getLsbD 6 = s.flags.z ∧ lo.getLsbD 4 = s.flags.ac ∧ lo.getLsbD 2 = s.flags.p ∧
      lo.getLsbD 0 = s.flags.cy ∧ lo.getLsbD 5 = (Config.unusedFlagBits s.tick).getLsbD 2 ∧
      lo.getLsbD 3 = (Config.unusedFlagBits s.tick).getLsbD 1 ∧
      lo.getLsbD 1 = (Config.unusedFlagBits s.tick).getLsbD 0)

/-- 45_stack.md rules R310, R311 (stack by decision D2, flag byte by D10, log 14, 18; wrap by D3, log 16; POP PSW's
flags by 90_conflicts.md C10, log 33): POP loads the low-order register from the byte at SP and the high-order one from
the byte at SP + 1 and raises SP by 2; POP PSW loads all five flags from the low-order byte, ignoring its bits 5, 3 and
1, and A from the high-order byte. -/
def Obligations.PopLoadsLowThenHigh : Prop :=
  ∀ s : State,
    let lo := s.memRead s.sp
    let hi := s.memRead (s.sp + 1)
    exec (.popRp .bc) s = .next
      { s with regs := { s.regs with b := hi, c := lo }, sp := s.sp + 2, pc := s.following 1 } ∧
    exec (.popRp .de) s = .next
      { s with regs := { s.regs with d := hi, e := lo }, sp := s.sp + 2, pc := s.following 1 } ∧
    exec (.popRp .hl) s = .next
      { s with regs := { s.regs with h := hi, l := lo }, sp := s.sp + 2, pc := s.following 1 } ∧
    exec .popPsw s = .next
      { s with
        regs := { s.regs with a := hi }
        flags :=
          { s := decide (lo.toNat / 128 % 2 = 1)
            z := decide (lo.toNat / 64 % 2 = 1)
            ac := decide (lo.toNat / 16 % 2 = 1)
            p := decide (lo.toNat / 4 % 2 = 1)
            cy := decide (lo.toNat % 2 = 1) }
        sp := s.sp + 2
        pc := s.following 1 }

/-- 45_stack.md rule R314 (order of the accesses by decision D25, log 26; SP + 1 wraps by D3, log 16; outside read-write
memory, 20_memory.md rule R63, a store changes nothing by D12, log 4, PRESUMED): XTHL exchanges L with the byte at SP
and H with the byte at SP + 1; SP and everything else stay. -/
def Obligations.XthlExchangesHlWithTheStackTop : Prop :=
  ∀ s : State, ∃ t, exec .xthl s = .next t ∧
    { t with mem := s.mem } =
      { s with
        regs := { s.regs with l := s.memRead s.sp, h := s.memRead (s.sp + 1) }
        pc := s.following 1 } ∧
    t.memRead s.sp = s.byteAfterStore s.sp s.regs.l ∧
    t.memRead (s.sp + 1) = s.byteAfterStore (s.sp + 1) s.regs.h ∧
    ∀ a : Word, a ≠ s.sp → a ≠ s.sp + 1 → t.memRead a = s.memRead a

/-- 95_test_vectors.md section 4, properties 2 and 3 (45_stack.md rules R310 to R313; stack by decision D2, flag byte by
D10, log 14, 18, 8; POP PSW by 90_conflicts.md C10, log 33): in read-write stack memory, PUSH and then POP of the same
pair, PSW included, restore the pair, all five flags and SP, whatever the three draws are. -/
def Obligations.PushThenPopRestores : Prop :=
  ∀ s : State, kindAt s.memMap (s.sp - 1) = .readWrite → kindAt s.memMap (s.sp - 2) = .readWrite →
    (∀ pp : RegPair, pp ≠ .sp → ∃ t u, exec (.pushRp pp) s = .next t ∧ exec (.popRp pp) t = .next u ∧
      { u with mem := s.mem } = { s with pc := s.following 2 }) ∧
    ∃ t u, exec .pushPsw s = .next t ∧ exec .popPsw t = .next u ∧
      { u with mem := s.mem } = { s with pc := s.following 2 }

/-- 95_test_vectors.md section 4, property 4 (44_data_transfer.md rule R294, 45_stack.md rule R314, 41_logical.md rules
R164, R165; XTHL by decision D25, log 26): XCHG, XTHL (in read-write stack memory), CMA and CMC done twice change
nothing but the pc; memory is compared by its bytes. -/
def Obligations.ExchangesAndComplementsUndoThemselves : Prop :=
  ∀ s : State, kindAt s.memMap s.sp = .readWrite → kindAt s.memMap (s.sp + 1) = .readWrite →
    ∀ i ∈ [Instr.xchg, .xthl, .cma, .cmc], ∃ t u, exec i s = .next t ∧ exec i t = .next u ∧
      { u with mem := s.mem } = { s with pc := s.following 2 } ∧ ∀ a : Word, u.memRead a = s.memRead a

/-- 95_test_vectors.md section 4, property 9 (40_arithmetic.md rules R131, R134; wrap by decision D3, log 16) and
property 10 (rules R129, R132; flags by D5 to D7, log 10, 11): INX then DCX of the same pair is the identity but for the
pc; INR then DCR restores the register and CY. -/
def Obligations.IncrementThenDecrementRestores : Prop :=
  ∀ s : State,
    (∀ pp, ∃ t, exec (.inx pp) s = .next t ∧ exec (.dcx pp) t = .next { s with pc := s.following 2 }) ∧
    ∀ r, ∃ t u, exec (.inrR r) s = .next t ∧ exec (.dcrR r) t = .next u ∧
      { u with flags := s.flags } = { s with pc := s.following 2 } ∧ u.flags.cy = s.flags.cy

/-! ## The end of a run -/

/-- 00_scope.md rule R14 (decision D29; which interrupts count as presented, log 34, DEDUCED; the halt state by D20, log
23; the step cycle by D15, log 19; the records, log 5): a run has ended exactly when it is halted and stays so however
far it goes. A halted machine with no reset and no line in any record left, whatever else they hold, and no RST 7.5
request pending that could be recognised, has ended. After the end nothing changes but the environment's fields, `tick`,
the RST 7.5 latch and `ei_delay`. -/
def Obligations.EndedRunStaysHalted : Prop :=
  (∀ s : State, s.Ended = true ↔ ∀ k, ∃ t : State, Sys2Proof.core.run k s = .next t ∧ t.ctl.halted = true) ∧
  (∀ s : State, s.ctl.halted = true →
    (∀ x ∈ s.inputs, x.resetIn = false ∧ x.lines = StepInput.quiet.lines) →
    (s.ctl.r75 = true → s.ctl.ie = false ∨ s.ctl.m75 = true) → s.Ended = true) ∧
  ∀ (s t : State) (k : Nat), s.Ended = true → Sys2Proof.core.run k s = .next t →
    t = { s with
      ctl := { s.ctl with r75 := t.ctl.r75, eiDelay := t.ctl.eiDelay }
      inputs := s.inputs.drop k
      now := t.now
      tick := s.tick + k }
end

