-- ==== Sys2Proof/Laws/State.lean ====
section
/-!
SUPPORT. Sys2Proof/Laws/State.lean: what each operation of the machine does to each field of the state, one lemma a field, and
that an operation which leaves memory alone leaves every read of a byte alone; each true by rfl. No later proof unfolds
an operation or a record update.
-/

namespace Sys2Proof.Machine

/-! ## setReg -/

@[simp] theorem State.setReg_regs (s : State) (r : Reg) (v : Byte) : (s.setReg r v).regs = s.regs.set r v := rfl
@[simp] theorem State.setReg_flags (s : State) (r : Reg) (v : Byte) : (s.setReg r v).flags = s.flags := rfl
@[simp] theorem State.setReg_sp (s : State) (r : Reg) (v : Byte) : (s.setReg r v).sp = s.sp := rfl
@[simp] theorem State.setReg_pc (s : State) (r : Reg) (v : Byte) : (s.setReg r v).pc = s.pc := rfl
@[simp] theorem State.setReg_ctl (s : State) (r : Reg) (v : Byte) : (s.setReg r v).ctl = s.ctl := rfl
@[simp] theorem State.setReg_mem (s : State) (r : Reg) (v : Byte) : (s.setReg r v).mem = s.mem := rfl
@[simp] theorem State.setReg_memMap (s : State) (r : Reg) (v : Byte) : (s.setReg r v).memMap = s.memMap := rfl
@[simp] theorem State.setReg_inputs (s : State) (r : Reg) (v : Byte) : (s.setReg r v).inputs = s.inputs := rfl
@[simp] theorem State.setReg_now (s : State) (r : Reg) (v : Byte) : (s.setReg r v).now = s.now := rfl
@[simp] theorem State.setReg_tick (s : State) (r : Reg) (v : Byte) : (s.setReg r v).tick = s.tick := rfl
@[simp] theorem State.setReg_trace (s : State) (r : Reg) (v : Byte) : (s.setReg r v).trace = s.trace := rfl
@[simp] theorem State.setReg_memRead (s : State) (r : Reg) (v : Byte) (at_ : Word) : (s.setReg r v).memRead at_ = s.memRead at_ := rfl
@[simp] theorem State.setReg_fetchRead (s : State) (r : Reg) (v : Byte) (at_ : Word) : (s.setReg r v).fetchRead at_ = s.fetchRead at_ := rfl

/-! ## setPair -/

@[simp] theorem State.setPair_regs (s : State) (pp : RegPair) (v : Word) : (s.setPair pp v).regs = s.regs.setPair pp v := rfl
@[simp] theorem State.setPair_flags (s : State) (pp : RegPair) (v : Word) : (s.setPair pp v).flags = s.flags := rfl
@[simp] theorem State.setPair_sp (s : State) (pp : RegPair) (v : Word) : (s.setPair pp v).sp = if pp = .sp then v else s.sp := rfl
@[simp] theorem State.setPair_pc (s : State) (pp : RegPair) (v : Word) : (s.setPair pp v).pc = s.pc := rfl
@[simp] theorem State.setPair_ctl (s : State) (pp : RegPair) (v : Word) : (s.setPair pp v).ctl = s.ctl := rfl
@[simp] theorem State.setPair_mem (s : State) (pp : RegPair) (v : Word) : (s.setPair pp v).mem = s.mem := rfl
@[simp] theorem State.setPair_memMap (s : State) (pp : RegPair) (v : Word) : (s.setPair pp v).memMap = s.memMap := rfl
@[simp] theorem State.setPair_inputs (s : State) (pp : RegPair) (v : Word) : (s.setPair pp v).inputs = s.inputs := rfl
@[simp] theorem State.setPair_now (s : State) (pp : RegPair) (v : Word) : (s.setPair pp v).now = s.now := rfl
@[simp] theorem State.setPair_tick (s : State) (pp : RegPair) (v : Word) : (s.setPair pp v).tick = s.tick := rfl
@[simp] theorem State.setPair_trace (s : State) (pp : RegPair) (v : Word) : (s.setPair pp v).trace = s.trace := rfl
@[simp] theorem State.setPair_memRead (s : State) (pp : RegPair) (v : Word) (at_ : Word) : (s.setPair pp v).memRead at_ = s.memRead at_ := rfl
@[simp] theorem State.setPair_fetchRead (s : State) (pp : RegPair) (v : Word) (at_ : Word) : (s.setPair pp v).fetchRead at_ = s.fetchRead at_ := rfl

/-! ## setFlags -/

@[simp] theorem State.setFlags_regs (s : State) (f : Flags) : (s.setFlags f).regs = s.regs := rfl
@[simp] theorem State.setFlags_flags (s : State) (f : Flags) : (s.setFlags f).flags = f := rfl
@[simp] theorem State.setFlags_sp (s : State) (f : Flags) : (s.setFlags f).sp = s.sp := rfl
@[simp] theorem State.setFlags_pc (s : State) (f : Flags) : (s.setFlags f).pc = s.pc := rfl
@[simp] theorem State.setFlags_ctl (s : State) (f : Flags) : (s.setFlags f).ctl = s.ctl := rfl
@[simp] theorem State.setFlags_mem (s : State) (f : Flags) : (s.setFlags f).mem = s.mem := rfl
@[simp] theorem State.setFlags_memMap (s : State) (f : Flags) : (s.setFlags f).memMap = s.memMap := rfl
@[simp] theorem State.setFlags_inputs (s : State) (f : Flags) : (s.setFlags f).inputs = s.inputs := rfl
@[simp] theorem State.setFlags_now (s : State) (f : Flags) : (s.setFlags f).now = s.now := rfl
@[simp] theorem State.setFlags_tick (s : State) (f : Flags) : (s.setFlags f).tick = s.tick := rfl
@[simp] theorem State.setFlags_trace (s : State) (f : Flags) : (s.setFlags f).trace = s.trace := rfl
@[simp] theorem State.setFlags_memRead (s : State) (f : Flags) (at_ : Word) : (s.setFlags f).memRead at_ = s.memRead at_ := rfl
@[simp] theorem State.setFlags_fetchRead (s : State) (f : Flags) (at_ : Word) : (s.setFlags f).fetchRead at_ = s.fetchRead at_ := rfl

/-! ## setCtl -/

@[simp] theorem State.setCtl_regs (s : State) (c : Control) : (s.setCtl c).regs = s.regs := rfl
@[simp] theorem State.setCtl_flags (s : State) (c : Control) : (s.setCtl c).flags = s.flags := rfl
@[simp] theorem State.setCtl_sp (s : State) (c : Control) : (s.setCtl c).sp = s.sp := rfl
@[simp] theorem State.setCtl_pc (s : State) (c : Control) : (s.setCtl c).pc = s.pc := rfl
@[simp] theorem State.setCtl_ctl (s : State) (c : Control) : (s.setCtl c).ctl = c := rfl
@[simp] theorem State.setCtl_mem (s : State) (c : Control) : (s.setCtl c).mem = s.mem := rfl
@[simp] theorem State.setCtl_memMap (s : State) (c : Control) : (s.setCtl c).memMap = s.memMap := rfl
@[simp] theorem State.setCtl_inputs (s : State) (c : Control) : (s.setCtl c).inputs = s.inputs := rfl
@[simp] theorem State.setCtl_now (s : State) (c : Control) : (s.setCtl c).now = s.now := rfl
@[simp] theorem State.setCtl_tick (s : State) (c : Control) : (s.setCtl c).tick = s.tick := rfl
@[simp] theorem State.setCtl_trace (s : State) (c : Control) : (s.setCtl c).trace = s.trace := rfl
@[simp] theorem State.setCtl_memRead (s : State) (c : Control) (at_ : Word) : (s.setCtl c).memRead at_ = s.memRead at_ := rfl
@[simp] theorem State.setCtl_fetchRead (s : State) (c : Control) (at_ : Word) : (s.setCtl c).fetchRead at_ = s.fetchRead at_ := rfl

/-! ## setSp -/

@[simp] theorem State.setSp_regs (s : State) (v : Word) : (s.setSp v).regs = s.regs := rfl
@[simp] theorem State.setSp_flags (s : State) (v : Word) : (s.setSp v).flags = s.flags := rfl
@[simp] theorem State.setSp_sp (s : State) (v : Word) : (s.setSp v).sp = v := rfl
@[simp] theorem State.setSp_pc (s : State) (v : Word) : (s.setSp v).pc = s.pc := rfl
@[simp] theorem State.setSp_ctl (s : State) (v : Word) : (s.setSp v).ctl = s.ctl := rfl
@[simp] theorem State.setSp_mem (s : State) (v : Word) : (s.setSp v).mem = s.mem := rfl
@[simp] theorem State.setSp_memMap (s : State) (v : Word) : (s.setSp v).memMap = s.memMap := rfl
@[simp] theorem State.setSp_inputs (s : State) (v : Word) : (s.setSp v).inputs = s.inputs := rfl
@[simp] theorem State.setSp_now (s : State) (v : Word) : (s.setSp v).now = s.now := rfl
@[simp] theorem State.setSp_tick (s : State) (v : Word) : (s.setSp v).tick = s.tick := rfl
@[simp] theorem State.setSp_trace (s : State) (v : Word) : (s.setSp v).trace = s.trace := rfl
@[simp] theorem State.setSp_memRead (s : State) (v : Word) (at_ : Word) : (s.setSp v).memRead at_ = s.memRead at_ := rfl
@[simp] theorem State.setSp_fetchRead (s : State) (v : Word) (at_ : Word) : (s.setSp v).fetchRead at_ = s.fetchRead at_ := rfl

/-! ## advance -/

@[simp] theorem State.advance_regs (s : State) (n : Word) : (s.advance n).regs = s.regs := rfl
@[simp] theorem State.advance_flags (s : State) (n : Word) : (s.advance n).flags = s.flags := rfl
@[simp] theorem State.advance_sp (s : State) (n : Word) : (s.advance n).sp = s.sp := rfl
@[simp] theorem State.advance_pc (s : State) (n : Word) : (s.advance n).pc = s.pc + n := rfl
@[simp] theorem State.advance_ctl (s : State) (n : Word) : (s.advance n).ctl = s.ctl := rfl
@[simp] theorem State.advance_mem (s : State) (n : Word) : (s.advance n).mem = s.mem := rfl
@[simp] theorem State.advance_memMap (s : State) (n : Word) : (s.advance n).memMap = s.memMap := rfl
@[simp] theorem State.advance_inputs (s : State) (n : Word) : (s.advance n).inputs = s.inputs := rfl
@[simp] theorem State.advance_now (s : State) (n : Word) : (s.advance n).now = s.now := rfl
@[simp] theorem State.advance_tick (s : State) (n : Word) : (s.advance n).tick = s.tick := rfl
@[simp] theorem State.advance_trace (s : State) (n : Word) : (s.advance n).trace = s.trace := rfl
@[simp] theorem State.advance_memRead (s : State) (n : Word) (at_ : Word) : (s.advance n).memRead at_ = s.memRead at_ := rfl
@[simp] theorem State.advance_fetchRead (s : State) (n : Word) (at_ : Word) : (s.advance n).fetchRead at_ = s.fetchRead at_ := rfl

/-! ## jump -/

@[simp] theorem State.jump_regs (s : State) (target : Word) : (s.jump target).regs = s.regs := rfl
@[simp] theorem State.jump_flags (s : State) (target : Word) : (s.jump target).flags = s.flags := rfl
@[simp] theorem State.jump_sp (s : State) (target : Word) : (s.jump target).sp = s.sp := rfl
@[simp] theorem State.jump_pc (s : State) (target : Word) : (s.jump target).pc = target := rfl
@[simp] theorem State.jump_ctl (s : State) (target : Word) : (s.jump target).ctl = s.ctl := rfl
@[simp] theorem State.jump_mem (s : State) (target : Word) : (s.jump target).mem = s.mem := rfl
@[simp] theorem State.jump_memMap (s : State) (target : Word) : (s.jump target).memMap = s.memMap := rfl
@[simp] theorem State.jump_inputs (s : State) (target : Word) : (s.jump target).inputs = s.inputs := rfl
@[simp] theorem State.jump_now (s : State) (target : Word) : (s.jump target).now = s.now := rfl
@[simp] theorem State.jump_tick (s : State) (target : Word) : (s.jump target).tick = s.tick := rfl
@[simp] theorem State.jump_trace (s : State) (target : Word) : (s.jump target).trace = s.trace := rfl
@[simp] theorem State.jump_memRead (s : State) (target : Word) (at_ : Word) : (s.jump target).memRead at_ = s.memRead at_ := rfl
@[simp] theorem State.jump_fetchRead (s : State) (target : Word) (at_ : Word) : (s.jump target).fetchRead at_ = s.fetchRead at_ := rfl

/-! ## emit -/

@[simp] theorem State.emit_regs (s : State) (e : IoEvent) : (s.emit e).regs = s.regs := rfl
@[simp] theorem State.emit_flags (s : State) (e : IoEvent) : (s.emit e).flags = s.flags := rfl
@[simp] theorem State.emit_sp (s : State) (e : IoEvent) : (s.emit e).sp = s.sp := rfl
@[simp] theorem State.emit_pc (s : State) (e : IoEvent) : (s.emit e).pc = s.pc := rfl
@[simp] theorem State.emit_ctl (s : State) (e : IoEvent) : (s.emit e).ctl = s.ctl := rfl
@[simp] theorem State.emit_mem (s : State) (e : IoEvent) : (s.emit e).mem = s.mem := rfl
@[simp] theorem State.emit_memMap (s : State) (e : IoEvent) : (s.emit e).memMap = s.memMap := rfl
@[simp] theorem State.emit_inputs (s : State) (e : IoEvent) : (s.emit e).inputs = s.inputs := rfl
@[simp] theorem State.emit_now (s : State) (e : IoEvent) : (s.emit e).now = s.now := rfl
@[simp] theorem State.emit_tick (s : State) (e : IoEvent) : (s.emit e).tick = s.tick := rfl
@[simp] theorem State.emit_trace (s : State) (e : IoEvent) : (s.emit e).trace = s.trace ++ [e] := rfl
@[simp] theorem State.emit_memRead (s : State) (e : IoEvent) (at_ : Word) : (s.emit e).memRead at_ = s.memRead at_ := rfl
@[simp] theorem State.emit_fetchRead (s : State) (e : IoEvent) (at_ : Word) : (s.emit e).fetchRead at_ = s.fetchRead at_ := rfl

/-! ## memWrite -/

@[simp] theorem State.memWrite_regs (s : State) (a : Word) (v : Byte) : (s.memWrite a v).regs = s.regs := rfl
@[simp] theorem State.memWrite_flags (s : State) (a : Word) (v : Byte) : (s.memWrite a v).flags = s.flags := rfl
@[simp] theorem State.memWrite_sp (s : State) (a : Word) (v : Byte) : (s.memWrite a v).sp = s.sp := rfl
@[simp] theorem State.memWrite_pc (s : State) (a : Word) (v : Byte) : (s.memWrite a v).pc = s.pc := rfl
@[simp] theorem State.memWrite_ctl (s : State) (a : Word) (v : Byte) : (s.memWrite a v).ctl = s.ctl := rfl
@[simp] theorem State.memWrite_mem (s : State) (a : Word) (v : Byte) : (s.memWrite a v).mem = s.memAfterWrite a v := rfl
@[simp] theorem State.memWrite_memMap (s : State) (a : Word) (v : Byte) : (s.memWrite a v).memMap = s.memMap := rfl
@[simp] theorem State.memWrite_inputs (s : State) (a : Word) (v : Byte) : (s.memWrite a v).inputs = s.inputs := rfl
@[simp] theorem State.memWrite_now (s : State) (a : Word) (v : Byte) : (s.memWrite a v).now = s.now := rfl
@[simp] theorem State.memWrite_tick (s : State) (a : Word) (v : Byte) : (s.memWrite a v).tick = s.tick := rfl
@[simp] theorem State.memWrite_trace (s : State) (a : Word) (v : Byte) : (s.memWrite a v).trace = s.trace := rfl

/-! ## push16 -/

@[simp] theorem State.push16_regs (s : State) (v : Word) : (s.push16 v).regs = s.regs := rfl
@[simp] theorem State.push16_flags (s : State) (v : Word) : (s.push16 v).flags = s.flags := rfl
@[simp] theorem State.push16_sp (s : State) (v : Word) : (s.push16 v).sp = s.sp - 2 := rfl
@[simp] theorem State.push16_pc (s : State) (v : Word) : (s.push16 v).pc = s.pc := rfl
@[simp] theorem State.push16_ctl (s : State) (v : Word) : (s.push16 v).ctl = s.ctl := rfl
@[simp] theorem State.push16_mem (s : State) (v : Word) : (s.push16 v).mem = ((s.memWrite (s.sp - 1) (hiByte v)).memWrite (s.sp - 2) (loByte v)).mem := rfl
@[simp] theorem State.push16_memMap (s : State) (v : Word) : (s.push16 v).memMap = s.memMap := rfl
@[simp] theorem State.push16_inputs (s : State) (v : Word) : (s.push16 v).inputs = s.inputs := rfl
@[simp] theorem State.push16_now (s : State) (v : Word) : (s.push16 v).now = s.now := rfl
@[simp] theorem State.push16_tick (s : State) (v : Word) : (s.push16 v).tick = s.tick := rfl
@[simp] theorem State.push16_trace (s : State) (v : Word) : (s.push16 v).trace = s.trace := rfl

/-! ## dropStack -/

@[simp] theorem State.dropStack_regs (s : State) : (s.dropStack).regs = s.regs := rfl
@[simp] theorem State.dropStack_flags (s : State) : (s.dropStack).flags = s.flags := rfl
@[simp] theorem State.dropStack_sp (s : State) : (s.dropStack).sp = s.sp + 2 := rfl
@[simp] theorem State.dropStack_pc (s : State) : (s.dropStack).pc = s.pc := rfl
@[simp] theorem State.dropStack_ctl (s : State) : (s.dropStack).ctl = s.ctl := rfl
@[simp] theorem State.dropStack_mem (s : State) : (s.dropStack).mem = s.mem := rfl
@[simp] theorem State.dropStack_memMap (s : State) : (s.dropStack).memMap = s.memMap := rfl
@[simp] theorem State.dropStack_inputs (s : State) : (s.dropStack).inputs = s.inputs := rfl
@[simp] theorem State.dropStack_now (s : State) : (s.dropStack).now = s.now := rfl
@[simp] theorem State.dropStack_tick (s : State) : (s.dropStack).tick = s.tick := rfl
@[simp] theorem State.dropStack_trace (s : State) : (s.dropStack).trace = s.trace := rfl
@[simp] theorem State.dropStack_memRead (s : State) (at_ : Word) : (s.dropStack).memRead at_ = s.memRead at_ := rfl
@[simp] theorem State.dropStack_fetchRead (s : State) (at_ : Word) : (s.dropStack).fetchRead at_ = s.fetchRead at_ := rfl

/-! ## addToA -/

@[simp] theorem State.addToA_regs (s : State) (x : Byte) (c : Bool) : (s.addToA x c).regs = s.regs.set .a (add8 s.regs.a x c).r := rfl
@[simp] theorem State.addToA_flags (s : State) (x : Byte) (c : Bool) : (s.addToA x c).flags = (add8 s.regs.a x c).flags := rfl
@[simp] theorem State.addToA_sp (s : State) (x : Byte) (c : Bool) : (s.addToA x c).sp = s.sp := rfl
@[simp] theorem State.addToA_pc (s : State) (x : Byte) (c : Bool) : (s.addToA x c).pc = s.pc := rfl
@[simp] theorem State.addToA_ctl (s : State) (x : Byte) (c : Bool) : (s.addToA x c).ctl = s.ctl := rfl
@[simp] theorem State.addToA_mem (s : State) (x : Byte) (c : Bool) : (s.addToA x c).mem = s.mem := rfl
@[simp] theorem State.addToA_memMap (s : State) (x : Byte) (c : Bool) : (s.addToA x c).memMap = s.memMap := rfl
@[simp] theorem State.addToA_inputs (s : State) (x : Byte) (c : Bool) : (s.addToA x c).inputs = s.inputs := rfl
@[simp] theorem State.addToA_now (s : State) (x : Byte) (c : Bool) : (s.addToA x c).now = s.now := rfl
@[simp] theorem State.addToA_tick (s : State) (x : Byte) (c : Bool) : (s.addToA x c).tick = s.tick := rfl
@[simp] theorem State.addToA_trace (s : State) (x : Byte) (c : Bool) : (s.addToA x c).trace = s.trace := rfl
@[simp] theorem State.addToA_memRead (s : State) (x : Byte) (c : Bool) (at_ : Word) : (s.addToA x c).memRead at_ = s.memRead at_ := rfl
@[simp] theorem State.addToA_fetchRead (s : State) (x : Byte) (c : Bool) (at_ : Word) : (s.addToA x c).fetchRead at_ = s.fetchRead at_ := rfl

/-! ## subFromA -/

@[simp] theorem State.subFromA_regs (s : State) (x : Byte) (c : Bool) : (s.subFromA x c).regs = s.regs.set .a (sub8 s.regs.a x c).r := rfl
@[simp] theorem State.subFromA_flags (s : State) (x : Byte) (c : Bool) : (s.subFromA x c).flags = (sub8 s.regs.a x c).flags := rfl
@[simp] theorem State.subFromA_sp (s : State) (x : Byte) (c : Bool) : (s.subFromA x c).sp = s.sp := rfl
@[simp] theorem State.subFromA_pc (s : State) (x : Byte) (c : Bool) : (s.subFromA x c).pc = s.pc := rfl
@[simp] theorem State.subFromA_ctl (s : State) (x : Byte) (c : Bool) : (s.subFromA x c).ctl = s.ctl := rfl
@[simp] theorem State.subFromA_mem (s : State) (x : Byte) (c : Bool) : (s.subFromA x c).mem = s.mem := rfl
@[simp] theorem State.subFromA_memMap (s : State) (x : Byte) (c : Bool) : (s.subFromA x c).memMap = s.memMap := rfl
@[simp] theorem State.subFromA_inputs (s : State) (x : Byte) (c : Bool) : (s.subFromA x c).inputs = s.inputs := rfl
@[simp] theorem State.subFromA_now (s : State) (x : Byte) (c : Bool) : (s.subFromA x c).now = s.now := rfl
@[simp] theorem State.subFromA_tick (s : State) (x : Byte) (c : Bool) : (s.subFromA x c).tick = s.tick := rfl
@[simp] theorem State.subFromA_trace (s : State) (x : Byte) (c : Bool) : (s.subFromA x c).trace = s.trace := rfl
@[simp] theorem State.subFromA_memRead (s : State) (x : Byte) (c : Bool) (at_ : Word) : (s.subFromA x c).memRead at_ = s.memRead at_ := rfl
@[simp] theorem State.subFromA_fetchRead (s : State) (x : Byte) (c : Bool) (at_ : Word) : (s.subFromA x c).fetchRead at_ = s.fetchRead at_ := rfl

/-! ## compareA -/

@[simp] theorem State.compareA_regs (s : State) (x : Byte) : (s.compareA x).regs = s.regs := rfl
@[simp] theorem State.compareA_flags (s : State) (x : Byte) : (s.compareA x).flags = (sub8 s.regs.a x false).flags := rfl
@[simp] theorem State.compareA_sp (s : State) (x : Byte) : (s.compareA x).sp = s.sp := rfl
@[simp] theorem State.compareA_pc (s : State) (x : Byte) : (s.compareA x).pc = s.pc := rfl
@[simp] theorem State.compareA_ctl (s : State) (x : Byte) : (s.compareA x).ctl = s.ctl := rfl
@[simp] theorem State.compareA_mem (s : State) (x : Byte) : (s.compareA x).mem = s.mem := rfl
@[simp] theorem State.compareA_memMap (s : State) (x : Byte) : (s.compareA x).memMap = s.memMap := rfl
@[simp] theorem State.compareA_inputs (s : State) (x : Byte) : (s.compareA x).inputs = s.inputs := rfl
@[simp] theorem State.compareA_now (s : State) (x : Byte) : (s.compareA x).now = s.now := rfl
@[simp] theorem State.compareA_tick (s : State) (x : Byte) : (s.compareA x).tick = s.tick := rfl
@[simp] theorem State.compareA_trace (s : State) (x : Byte) : (s.compareA x).trace = s.trace := rfl
@[simp] theorem State.compareA_memRead (s : State) (x : Byte) (at_ : Word) : (s.compareA x).memRead at_ = s.memRead at_ := rfl
@[simp] theorem State.compareA_fetchRead (s : State) (x : Byte) (at_ : Word) : (s.compareA x).fetchRead at_ = s.fetchRead at_ := rfl

/-! ## logicToA -/

@[simp] theorem State.logicToA_regs (s : State) (r : Byte) (ac : Bool) : (s.logicToA r ac).regs = s.regs.set .a r := rfl
@[simp] theorem State.logicToA_flags (s : State) (r : Byte) (ac : Bool) : (s.logicToA r ac).flags = logicFlags r ac := rfl
@[simp] theorem State.logicToA_sp (s : State) (r : Byte) (ac : Bool) : (s.logicToA r ac).sp = s.sp := rfl
@[simp] theorem State.logicToA_pc (s : State) (r : Byte) (ac : Bool) : (s.logicToA r ac).pc = s.pc := rfl
@[simp] theorem State.logicToA_ctl (s : State) (r : Byte) (ac : Bool) : (s.logicToA r ac).ctl = s.ctl := rfl
@[simp] theorem State.logicToA_mem (s : State) (r : Byte) (ac : Bool) : (s.logicToA r ac).mem = s.mem := rfl
@[simp] theorem State.logicToA_memMap (s : State) (r : Byte) (ac : Bool) : (s.logicToA r ac).memMap = s.memMap := rfl
@[simp] theorem State.logicToA_inputs (s : State) (r : Byte) (ac : Bool) : (s.logicToA r ac).inputs = s.inputs := rfl
@[simp] theorem State.logicToA_now (s : State) (r : Byte) (ac : Bool) : (s.logicToA r ac).now = s.now := rfl
@[simp] theorem State.logicToA_tick (s : State) (r : Byte) (ac : Bool) : (s.logicToA r ac).tick = s.tick := rfl
@[simp] theorem State.logicToA_trace (s : State) (r : Byte) (ac : Bool) : (s.logicToA r ac).trace = s.trace := rfl
@[simp] theorem State.logicToA_memRead (s : State) (r : Byte) (ac : Bool) (at_ : Word) : (s.logicToA r ac).memRead at_ = s.memRead at_ := rfl
@[simp] theorem State.logicToA_fetchRead (s : State) (r : Byte) (ac : Bool) (at_ : Word) : (s.logicToA r ac).fetchRead at_ = s.fetchRead at_ := rfl

/-! ## rotateA -/

@[simp] theorem State.rotateA_regs (s : State) (r : Byte) (cy : Bool) : (s.rotateA r cy).regs = s.regs.set .a r := rfl
@[simp] theorem State.rotateA_flags (s : State) (r : Byte) (cy : Bool) : (s.rotateA r cy).flags = { s.flags with cy := cy } := rfl
@[simp] theorem State.rotateA_sp (s : State) (r : Byte) (cy : Bool) : (s.rotateA r cy).sp = s.sp := rfl
@[simp] theorem State.rotateA_pc (s : State) (r : Byte) (cy : Bool) : (s.rotateA r cy).pc = s.pc := rfl
@[simp] theorem State.rotateA_ctl (s : State) (r : Byte) (cy : Bool) : (s.rotateA r cy).ctl = s.ctl := rfl
@[simp] theorem State.rotateA_mem (s : State) (r : Byte) (cy : Bool) : (s.rotateA r cy).mem = s.mem := rfl
@[simp] theorem State.rotateA_memMap (s : State) (r : Byte) (cy : Bool) : (s.rotateA r cy).memMap = s.memMap := rfl
@[simp] theorem State.rotateA_inputs (s : State) (r : Byte) (cy : Bool) : (s.rotateA r cy).inputs = s.inputs := rfl
@[simp] theorem State.rotateA_now (s : State) (r : Byte) (cy : Bool) : (s.rotateA r cy).now = s.now := rfl
@[simp] theorem State.rotateA_tick (s : State) (r : Byte) (cy : Bool) : (s.rotateA r cy).tick = s.tick := rfl
@[simp] theorem State.rotateA_trace (s : State) (r : Byte) (cy : Bool) : (s.rotateA r cy).trace = s.trace := rfl
@[simp] theorem State.rotateA_memRead (s : State) (r : Byte) (cy : Bool) (at_ : Word) : (s.rotateA r cy).memRead at_ = s.memRead at_ := rfl
@[simp] theorem State.rotateA_fetchRead (s : State) (r : Byte) (cy : Bool) (at_ : Word) : (s.rotateA r cy).fetchRead at_ = s.fetchRead at_ := rfl

/-! ## incFlags -/

@[simp] theorem State.incFlags_regs (s : State) (v : Byte) : (s.incFlags v).regs = s.regs := rfl
@[simp] theorem State.incFlags_flags (s : State) (v : Byte) : (s.incFlags v).flags = (add8 v 0x01#8 false).flagsKeepCarry s.flags := rfl
@[simp] theorem State.incFlags_sp (s : State) (v : Byte) : (s.incFlags v).sp = s.sp := rfl
@[simp] theorem State.incFlags_pc (s : State) (v : Byte) : (s.incFlags v).pc = s.pc := rfl
@[simp] theorem State.incFlags_ctl (s : State) (v : Byte) : (s.incFlags v).ctl = s.ctl := rfl
@[simp] theorem State.incFlags_mem (s : State) (v : Byte) : (s.incFlags v).mem = s.mem := rfl
@[simp] theorem State.incFlags_memMap (s : State) (v : Byte) : (s.incFlags v).memMap = s.memMap := rfl
@[simp] theorem State.incFlags_inputs (s : State) (v : Byte) : (s.incFlags v).inputs = s.inputs := rfl
@[simp] theorem State.incFlags_now (s : State) (v : Byte) : (s.incFlags v).now = s.now := rfl
@[simp] theorem State.incFlags_tick (s : State) (v : Byte) : (s.incFlags v).tick = s.tick := rfl
@[simp] theorem State.incFlags_trace (s : State) (v : Byte) : (s.incFlags v).trace = s.trace := rfl
@[simp] theorem State.incFlags_memRead (s : State) (v : Byte) (at_ : Word) : (s.incFlags v).memRead at_ = s.memRead at_ := rfl
@[simp] theorem State.incFlags_fetchRead (s : State) (v : Byte) (at_ : Word) : (s.incFlags v).fetchRead at_ = s.fetchRead at_ := rfl

/-! ## decFlags -/

@[simp] theorem State.decFlags_regs (s : State) (v : Byte) : (s.decFlags v).regs = s.regs := rfl
@[simp] theorem State.decFlags_flags (s : State) (v : Byte) : (s.decFlags v).flags = (sub8 v 0x01#8 false).flagsKeepCarry s.flags := rfl
@[simp] theorem State.decFlags_sp (s : State) (v : Byte) : (s.decFlags v).sp = s.sp := rfl
@[simp] theorem State.decFlags_pc (s : State) (v : Byte) : (s.decFlags v).pc = s.pc := rfl
@[simp] theorem State.decFlags_ctl (s : State) (v : Byte) : (s.decFlags v).ctl = s.ctl := rfl
@[simp] theorem State.decFlags_mem (s : State) (v : Byte) : (s.decFlags v).mem = s.mem := rfl
@[simp] theorem State.decFlags_memMap (s : State) (v : Byte) : (s.decFlags v).memMap = s.memMap := rfl
@[simp] theorem State.decFlags_inputs (s : State) (v : Byte) : (s.decFlags v).inputs = s.inputs := rfl
@[simp] theorem State.decFlags_now (s : State) (v : Byte) : (s.decFlags v).now = s.now := rfl
@[simp] theorem State.decFlags_tick (s : State) (v : Byte) : (s.decFlags v).tick = s.tick := rfl
@[simp] theorem State.decFlags_trace (s : State) (v : Byte) : (s.decFlags v).trace = s.trace := rfl
@[simp] theorem State.decFlags_memRead (s : State) (v : Byte) (at_ : Word) : (s.decFlags v).memRead at_ = s.memRead at_ := rfl
@[simp] theorem State.decFlags_fetchRead (s : State) (v : Byte) (at_ : Word) : (s.decFlags v).fetchRead at_ = s.fetchRead at_ := rfl

/-! ## callTo -/

@[simp] theorem State.callTo_regs (s : State) (n target : Word) : (s.callTo n target).regs = s.regs := rfl
@[simp] theorem State.callTo_flags (s : State) (n target : Word) : (s.callTo n target).flags = s.flags := rfl
@[simp] theorem State.callTo_sp (s : State) (n target : Word) : (s.callTo n target).sp = s.sp - 2 := rfl
@[simp] theorem State.callTo_pc (s : State) (n target : Word) : (s.callTo n target).pc = target := rfl
@[simp] theorem State.callTo_ctl (s : State) (n target : Word) : (s.callTo n target).ctl = s.ctl := rfl
@[simp] theorem State.callTo_mem (s : State) (n target : Word) : (s.callTo n target).mem = (s.push16 (s.pc + n)).mem := rfl
@[simp] theorem State.callTo_memMap (s : State) (n target : Word) : (s.callTo n target).memMap = s.memMap := rfl
@[simp] theorem State.callTo_inputs (s : State) (n target : Word) : (s.callTo n target).inputs = s.inputs := rfl
@[simp] theorem State.callTo_now (s : State) (n target : Word) : (s.callTo n target).now = s.now := rfl
@[simp] theorem State.callTo_tick (s : State) (n target : Word) : (s.callTo n target).tick = s.tick := rfl
@[simp] theorem State.callTo_trace (s : State) (n target : Word) : (s.callTo n target).trace = s.trace := rfl

/-! ## ret -/

@[simp] theorem State.ret_regs (s : State) : (s.ret).regs = s.regs := rfl
@[simp] theorem State.ret_flags (s : State) : (s.ret).flags = s.flags := rfl
@[simp] theorem State.ret_sp (s : State) : (s.ret).sp = s.sp + 2 := rfl
@[simp] theorem State.ret_pc (s : State) : (s.ret).pc = s.stackTop := rfl
@[simp] theorem State.ret_ctl (s : State) : (s.ret).ctl = s.ctl := rfl
@[simp] theorem State.ret_mem (s : State) : (s.ret).mem = s.mem := rfl
@[simp] theorem State.ret_memMap (s : State) : (s.ret).memMap = s.memMap := rfl
@[simp] theorem State.ret_inputs (s : State) : (s.ret).inputs = s.inputs := rfl
@[simp] theorem State.ret_now (s : State) : (s.ret).now = s.now := rfl
@[simp] theorem State.ret_tick (s : State) : (s.ret).tick = s.tick := rfl
@[simp] theorem State.ret_trace (s : State) : (s.ret).trace = s.trace := rfl
@[simp] theorem State.ret_memRead (s : State) (at_ : Word) : (s.ret).memRead at_ = s.memRead at_ := rfl
@[simp] theorem State.ret_fetchRead (s : State) (at_ : Word) : (s.ret).fetchRead at_ = s.fetchRead at_ := rfl

/-! ## latchEdge -/

@[simp] theorem State.latchEdge_regs (s : State) : (s.latchEdge).regs = s.regs := rfl
@[simp] theorem State.latchEdge_flags (s : State) : (s.latchEdge).flags = s.flags := rfl
@[simp] theorem State.latchEdge_sp (s : State) : (s.latchEdge).sp = s.sp := rfl
@[simp] theorem State.latchEdge_pc (s : State) : (s.latchEdge).pc = s.pc := rfl
@[simp] theorem State.latchEdge_ctl (s : State) : (s.latchEdge).ctl = { s.ctl with r75 := s.ctl.r75 || s.now.lines.r75Edge } := rfl
@[simp] theorem State.latchEdge_mem (s : State) : (s.latchEdge).mem = s.mem := rfl
@[simp] theorem State.latchEdge_memMap (s : State) : (s.latchEdge).memMap = s.memMap := rfl
@[simp] theorem State.latchEdge_inputs (s : State) : (s.latchEdge).inputs = s.inputs := rfl
@[simp] theorem State.latchEdge_now (s : State) : (s.latchEdge).now = s.now := rfl
@[simp] theorem State.latchEdge_tick (s : State) : (s.latchEdge).tick = s.tick := rfl
@[simp] theorem State.latchEdge_trace (s : State) : (s.latchEdge).trace = s.trace := rfl
@[simp] theorem State.latchEdge_memRead (s : State) (at_ : Word) : (s.latchEdge).memRead at_ = s.memRead at_ := rfl
@[simp] theorem State.latchEdge_fetchRead (s : State) (at_ : Word) : (s.latchEdge).fetchRead at_ = s.fetchRead at_ := rfl

/-! ## endEiDelay -/

@[simp] theorem State.endEiDelay_regs (s : State) : (s.endEiDelay).regs = s.regs := rfl
@[simp] theorem State.endEiDelay_flags (s : State) : (s.endEiDelay).flags = s.flags := rfl
@[simp] theorem State.endEiDelay_sp (s : State) : (s.endEiDelay).sp = s.sp := rfl
@[simp] theorem State.endEiDelay_pc (s : State) : (s.endEiDelay).pc = s.pc := rfl
@[simp] theorem State.endEiDelay_ctl (s : State) : (s.endEiDelay).ctl = { s.ctl with eiDelay := false } := rfl
@[simp] theorem State.endEiDelay_mem (s : State) : (s.endEiDelay).mem = s.mem := rfl
@[simp] theorem State.endEiDelay_memMap (s : State) : (s.endEiDelay).memMap = s.memMap := rfl
@[simp] theorem State.endEiDelay_inputs (s : State) : (s.endEiDelay).inputs = s.inputs := rfl
@[simp] theorem State.endEiDelay_now (s : State) : (s.endEiDelay).now = s.now := rfl
@[simp] theorem State.endEiDelay_tick (s : State) : (s.endEiDelay).tick = s.tick := rfl
@[simp] theorem State.endEiDelay_trace (s : State) : (s.endEiDelay).trace = s.trace := rfl
@[simp] theorem State.endEiDelay_memRead (s : State) (at_ : Word) : (s.endEiDelay).memRead at_ = s.memRead at_ := rfl
@[simp] theorem State.endEiDelay_fetchRead (s : State) (at_ : Word) : (s.endEiDelay).fetchRead at_ = s.fetchRead at_ := rfl

/-! ## takeInput -/

@[simp] theorem State.takeInput_regs (s : State) : (s.takeInput).regs = s.regs := rfl
@[simp] theorem State.takeInput_flags (s : State) : (s.takeInput).flags = s.flags := rfl
@[simp] theorem State.takeInput_sp (s : State) : (s.takeInput).sp = s.sp := rfl
@[simp] theorem State.takeInput_pc (s : State) : (s.takeInput).pc = s.pc := rfl
@[simp] theorem State.takeInput_ctl (s : State) : (s.takeInput).ctl = s.ctl := rfl
@[simp] theorem State.takeInput_mem (s : State) : (s.takeInput).mem = s.mem := rfl
@[simp] theorem State.takeInput_memMap (s : State) : (s.takeInput).memMap = s.memMap := rfl
@[simp] theorem State.takeInput_inputs (s : State) : (s.takeInput).inputs = s.inputs.tail := rfl
@[simp] theorem State.takeInput_now (s : State) : (s.takeInput).now = s.inputs.headD StepInput.quiet := rfl
@[simp] theorem State.takeInput_tick (s : State) : (s.takeInput).tick = s.tick + 1 := rfl
@[simp] theorem State.takeInput_trace (s : State) : (s.takeInput).trace = s.trace := rfl

/-! ## applyReset -/

@[simp] theorem State.applyReset_regs (s : State) : (s.applyReset).regs = resetRegs s.tick := rfl
@[simp] theorem State.applyReset_flags (s : State) : (s.applyReset).flags = Flags.ofByte (Config.resetFlagByte s.tick) := rfl
@[simp] theorem State.applyReset_sp (s : State) : (s.applyReset).sp = Config.resetSp s.tick := rfl
@[simp] theorem State.applyReset_pc (s : State) : (s.applyReset).pc = 0x0000#16 := rfl
@[simp] theorem State.applyReset_ctl (s : State) : (s.applyReset).ctl = resetControl s.tick := rfl
@[simp] theorem State.applyReset_mem (s : State) : (s.applyReset).mem = s.mem := rfl
@[simp] theorem State.applyReset_memMap (s : State) : (s.applyReset).memMap = s.memMap := rfl
@[simp] theorem State.applyReset_inputs (s : State) : (s.applyReset).inputs = s.inputs := rfl
@[simp] theorem State.applyReset_now (s : State) : (s.applyReset).now = s.now := rfl
@[simp] theorem State.applyReset_tick (s : State) : (s.applyReset).tick = s.tick := rfl
@[simp] theorem State.applyReset_trace (s : State) : (s.applyReset).trace = s.trace := rfl
@[simp] theorem State.applyReset_memRead (s : State) (at_ : Word) : (s.applyReset).memRead at_ = s.memRead at_ := rfl
@[simp] theorem State.applyReset_fetchRead (s : State) (at_ : Word) : (s.applyReset).fetchRead at_ = s.fetchRead at_ := rfl

end Sys2Proof.Machine
end

