-- ==== Sys2Proof/Laws/Memory.lean ====
section
/-!
SUPPORT. Sys2Proof/Laws/Memory.lean: memory as a list: read after write, and the canonical form kept; then the same through
the byte accesses of the state.
-/

namespace Sys2Proof.Machine

/-! ## Contents -/

@[simp] theorem Memory.read_nil (a : Nat) : Memory.read [] a = Memory.unlisted := rfl

/-- An address below the first pair is not listed. -/
theorem Memory.read_below (m : Memory) (lo a : Nat) (h : m.wfFrom lo = true) (ha : a < lo) :
    m.read a = Memory.unlisted := by
  cases m with
  | nil => rfl
  | cons cell rest =>
    obtain ⟨k, w⟩ := cell
    simp only [Memory.wfFrom, Bool.and_eq_true, decide_eq_true_eq] at h
    have : a < k := by omega
    simp [Memory.read, this]

/-- Dropping the pairs up to `a` leaves `a` and everything below it unlisted. -/
theorem Memory.read_dropWhile_le (m : Memory) (a b : Nat) (h : b ≤ a) :
    Memory.read (m.dropWhile (fun cell => cell.1 ≤ a)) b = Memory.unlisted := by
  induction m with
  | nil => rfl
  | cons cell rest ih =>
    obtain ⟨k, w⟩ := cell
    rw [List.dropWhile_cons]
    split
    · exact ih
    · rename_i hk
      have : b < k := by simp at hk; omega
      simp [Memory.read, this]

/-- Dropping the pairs up to `a` leaves every read above it alone. -/
theorem Memory.read_dropWhile_gt (m : Memory) (a b : Nat) (h : a < b) :
    Memory.read (m.dropWhile (fun cell => cell.1 ≤ a)) b = m.read b := by
  induction m with
  | nil => rfl
  | cons cell rest ih =>
    obtain ⟨k, w⟩ := cell
    rw [List.dropWhile_cons]
    split
    · rename_i hk
      have h1 : ¬ b < k := by simp at hk; omega
      have h2 : b ≠ k := by simp at hk; omega
      rw [ih, Memory.read, if_neg h1, if_neg h2]
    · rfl

/-- A read after a write to the same address gives the byte written. -/
@[simp] theorem Memory.read_write_same (m : Memory) (a : Nat) (v : Byte) : (m.write a v).read a = v := by
  induction m with
  | nil =>
    by_cases hv : v = Memory.unlisted <;> simp [Memory.write, Memory.read, hv]
  | cons cell rest ih =>
    obtain ⟨k, w⟩ := cell
    rw [Memory.write]
    split
    · rename_i hk
      by_cases hv : v = Memory.unlisted <;> simp [Memory.read, hk, hv]
    · rename_i hk
      split
      · by_cases hv : v = Memory.unlisted
        · simp [hv, Memory.read_dropWhile_le rest a a (Nat.le_refl a)]
        · simp [hv, Memory.read]
      · rename_i hne
        simp [Memory.read, hk, hne, ih]

/-- A write leaves every other address alone. -/
theorem Memory.read_write_ne (m : Memory) (a b : Nat) (v : Byte) (h : b ≠ a) : (m.write a v).read b = m.read b := by
  induction m with
  | nil =>
    by_cases hv : v = Memory.unlisted
    · simp [Memory.write, hv]
    · simp [Memory.write, Memory.read, hv, h]
  | cons cell rest ih =>
    obtain ⟨k, w⟩ := cell
    rw [Memory.write]
    split
    · rename_i hk
      by_cases hv : v = Memory.unlisted
      · simp [hv]
      · rw [if_neg hv, Memory.read]
        by_cases hb : b < a
        · have : b < k := by omega
          simp [Memory.read, hb, this]
        · simp [hb, h]
    · rename_i hk
      split
      · rename_i hak
        subst hak
        by_cases hv : v = Memory.unlisted
        · rw [if_pos hv]
          by_cases hb : b < a
          · rw [Memory.read_dropWhile_le rest a b (by omega), Memory.read, if_pos hb]
          · rw [Memory.read_dropWhile_gt rest a b (by omega), Memory.read, if_neg hb, if_neg h]
        · rw [if_neg hv, Memory.read, Memory.read]
          simp [h]
      · rw [Memory.read, Memory.read, ih]

/-- Raising the bound below the first pair keeps the form. -/
theorem Memory.wfFrom_mono (m : Memory) (lo lo' : Nat) (h : m.wfFrom lo = true) (hl : lo' ≤ lo) :
    m.wfFrom lo' = true := by
  cases m with
  | nil => rfl
  | cons cell rest =>
    obtain ⟨k, w⟩ := cell
    simp only [Memory.wfFrom, Bool.and_eq_true, decide_eq_true_eq] at h ⊢
    exact ⟨⟨⟨by omega, h.1.1.2⟩, h.1.2⟩, h.2⟩

/-- A memory in canonical form above `a` has no pair to drop. -/
theorem Memory.dropWhile_of_wfFrom (m : Memory) (a : Nat) (h : m.wfFrom (a + 1) = true) :
    m.dropWhile (fun cell => cell.1 ≤ a) = m := by
  cases m with
  | nil => rfl
  | cons cell rest =>
    obtain ⟨k, w⟩ := cell
    simp only [Memory.wfFrom, Bool.and_eq_true, decide_eq_true_eq] at h
    rw [List.dropWhile_cons, if_neg (by simp; omega)]

/-- A write at or above the bound keeps the form. -/
theorem Memory.wfFrom_write (m : Memory) (lo a : Nat) (v : Byte) (h : m.wfFrom lo = true) (hlo : lo ≤ a)
    (ha : a < 65536) : (m.write a v).wfFrom lo = true := by
  induction m generalizing lo with
  | nil =>
    by_cases hv : v = Memory.unlisted <;> simp [Memory.write, Memory.wfFrom, hv, hlo, ha]
  | cons cell rest ih =>
    obtain ⟨k, w⟩ := cell
    have h0 := h
    simp only [Memory.wfFrom, Bool.and_eq_true, decide_eq_true_eq] at h
    obtain ⟨⟨⟨h1, h2⟩, h3⟩, h4⟩ := h
    rw [Memory.write]
    split
    · rename_i hk
      by_cases hv : v = Memory.unlisted
      · rw [if_pos hv]; exact h0
      · rw [if_neg hv]
        have : Nat.succ a ≤ k := hk
        simp [Memory.wfFrom, hlo, ha, hv, h2, h3, h4, this]
    · rename_i hk
      split
      · rename_i hak
        subst hak
        by_cases hv : v = Memory.unlisted
        · rw [if_pos hv, Memory.dropWhile_of_wfFrom rest a h4]
          exact Memory.wfFrom_mono rest (a + 1) lo h4 (by omega)
        · rw [if_neg hv]
          simp [Memory.wfFrom, hlo, ha, hv, h4]
      · rename_i hne
        simp [Memory.wfFrom, h1, h2, h3, ih (k + 1) h4 (by omega)]

/-- Every write inside the 64 KiB space keeps the canonical form. -/
theorem Memory.wf_write (m : Memory) (a : Nat) (v : Byte) (h : m.wf = true) (ha : a < 65536) :
    (m.write a v).wf = true :=
  Memory.wfFrom_write m 0 a v h (Nat.zero_le a) ha

/-- Memory at reset is in canonical form. -/
theorem reset_mem_wf : State.reset.mem.wf = true := by decide

/-! ## Through the state -/

/-- Two writes of one address are the second. -/
theorem toNat_ne_of_ne (a b : Word) (h : b ≠ a) : b.toNat ≠ a.toNat :=
  fun he => h (BitVec.eq_of_toNat_eq he)

/-- A byte written to read-write memory is read back. -/
theorem State.memRead_memWrite_same (s : State) (a : Word) (v : Byte) (h : kindAt s.memMap a = .readWrite) :
    (s.memWrite a v).memRead a = v := by
  simp [State.memRead, State.memAfterWrite, h]

/-- A write leaves every read of another address alone, whatever is behind the two. -/
theorem State.memRead_memWrite_ne (s : State) (a b : Word) (v : Byte) (h : b ≠ a) :
    (s.memWrite a v).memRead b = s.memRead b := by
  have hn := toNat_ne_of_ne a b h
  simp only [State.memRead, State.memWrite_memMap, State.memWrite_mem, State.memWrite_tick, State.memAfterWrite]
  cases kindAt s.memMap b <;> cases kindAt s.memMap a <;> simp [Memory.read_write_ne, hn]

/-- A write where there is no read-write memory changes nothing (20_memory.md rule R63). -/
theorem State.memWrite_of_not_readWrite (s : State) (a : Word) (v : Byte) (h : kindAt s.memMap a ≠ .readWrite) :
    s.memWrite a v = s := by
  cases hk : kindAt s.memMap a <;> simp_all [State.memWrite, State.memAfterWrite]

/-- A data read where something is reads memory's contents. -/
theorem State.memRead_of_not_empty (s : State) (a : Word) (h : kindAt s.memMap a ≠ .empty) :
    s.memRead a = s.mem.read a.toNat := by
  cases hk : kindAt s.memMap a <;> simp_all [State.memRead]

/-- A fetch where something is reads memory's contents. -/
theorem State.fetchRead_of_not_empty (s : State) (a : Word) (h : kindAt s.memMap a ≠ .empty) :
    s.fetchRead a = s.mem.read a.toNat := by
  cases hk : kindAt s.memMap a <;> simp_all [State.fetchRead]

/-- Every write keeps the canonical form. -/
theorem State.memAfterWrite_wf (s : State) (a : Word) (v : Byte) (h : s.mem.wf = true) :
    (s.memAfterWrite a v).wf = true := by
  cases hk : kindAt s.memMap a <;> simp [State.memAfterWrite, hk, h]
  exact Memory.wf_write s.mem a.toNat v h a.isLt

/-- push16 keeps the canonical form. -/
theorem State.push16_wf (s : State) (v : Word) (h : s.mem.wf = true) : (s.push16 v).mem.wf = true := by
  rw [State.push16_mem]
  exact State.memAfterWrite_wf _ _ _ (State.memAfterWrite_wf _ _ _ h)

/-- push16 leaves every byte but its two alone (rule R66). -/
theorem State.push16_memRead_ne (s : State) (v a : Word) (h1 : a ≠ s.sp - 1) (h2 : a ≠ s.sp - 2) :
    (s.push16 v).memRead a = s.memRead a := by
  have h : (s.push16 v).memRead a = ((s.memWrite (s.sp - 1) (hiByte v)).memWrite (s.sp - 2) (loByte v)).memRead a := rfl
  rw [h, State.memRead_memWrite_ne _ _ _ _ h2, State.memRead_memWrite_ne _ _ _ _ h1]

/-- After push16 to read-write memory, the low-order byte is at the new SP (rule R66). -/
theorem State.push16_memRead_low (s : State) (v : Word) (h : kindAt s.memMap (s.sp - 2) = .readWrite) :
    (s.push16 v).memRead (s.sp - 2) = loByte v :=
  State.memRead_memWrite_same (s.memWrite (s.sp - 1) (hiByte v)) (s.sp - 2) (loByte v) h

/-- After push16 to read-write memory, the high-order byte is at the new SP + 1 (rule R66). -/
theorem State.push16_memRead_high (s : State) (v : Word) (h : kindAt s.memMap (s.sp - 1) = .readWrite) :
    (s.push16 v).memRead (s.sp - 1) = hiByte v := by
  have hne : s.sp - 1 ≠ s.sp - 2 := by bv_omega
  have h1 : (s.push16 v).memRead (s.sp - 1)
      = ((s.memWrite (s.sp - 1) (hiByte v)).memWrite (s.sp - 2) (loByte v)).memRead (s.sp - 1) := rfl
  rw [h1, State.memRead_memWrite_ne _ _ _ _ hne, State.memRead_memWrite_same _ _ _ h]

end Sys2Proof.Machine
end

