-- ==== Sys2Proof/Laws/Operands.lean ====
section
/-!
SUPPORT. Sys2Proof/Laws/Operands.lean: bytes and words, registers and pairs, flag computations, conditions.
-/

namespace Sys2Proof

theorem wordOf_toNat (hi lo : Byte) : (wordOf hi lo).toNat = 256 * hi.toNat + lo.toNat := by
  have h : (wordOf hi lo).toNat = hi.toNat <<< 8 ||| lo.toNat := BitVec.toNat_append hi lo
  rw [h, ← Nat.shiftLeft_add_eq_or_of_lt lo.isLt, Nat.shiftLeft_eq]
  omega

theorem hiByte_toNat (w : Word) : (hiByte w).toNat = w.toNat / 256 := by
  have h := w.isLt
  simp only [hiByte, BitVec.extractLsb'_toNat, Nat.shiftRight_eq_div_pow]
  omega

theorem loByte_toNat (w : Word) : (loByte w).toNat = w.toNat % 256 := by
  simp [loByte, BitVec.extractLsb'_toNat]

@[simp] theorem hiByte_wordOf (hi lo : Byte) : hiByte (wordOf hi lo) = hi := by
  have h := lo.isLt
  apply BitVec.eq_of_toNat_eq
  rw [hiByte_toNat, wordOf_toNat]
  omega

@[simp] theorem loByte_wordOf (hi lo : Byte) : loByte (wordOf hi lo) = lo := by
  have h := lo.isLt
  apply BitVec.eq_of_toNat_eq
  rw [loByte_toNat, wordOf_toNat]
  omega

@[simp] theorem wordOf_hiByte_loByte (w : Word) : wordOf (hiByte w) (loByte w) = w := by
  apply BitVec.eq_of_toNat_eq
  rw [wordOf_toNat, hiByte_toNat, loByte_toNat]
  omega

@[simp] theorem Reg.ofCode_code (r : Reg) : Reg.ofCode r.code = some r := by cases r <;> rfl

@[simp] theorem RegPair.ofCode_code (pp : RegPair) : RegPair.ofCode pp.code = pp := by cases pp <;> rfl

/-- A code names a register exactly when it is that register's code; code 110 names none (10_state.md rule R21). -/
theorem Reg.ofCode_eq_some_iff (x : BitVec 3) (r : Reg) : Reg.ofCode x = some r ↔ x = r.code := by
  revert x r
  intro x r
  cases r <;> revert x <;> decide

theorem Reg.ofCode_eq_none_iff (x : BitVec 3) : Reg.ofCode x = none ↔ x = 0b110#3 := by
  revert x
  decide

namespace Machine

/-! ## Registers and pairs -/

@[simp] theorem Regs.get_set_same (g : Regs) (r : Reg) (v : Byte) : (g.set r v).get r = v := by cases r <;> rfl

theorem Regs.get_set_ne (g : Regs) (r r' : Reg) (v : Byte) (h : r' ≠ r) : (g.set r v).get r' = g.get r' := by
  cases r <;> cases r' <;> first | rfl | exact absurd rfl h

@[simp] theorem State.getReg_setReg_same (s : State) (r : Reg) (v : Byte) : (s.setReg r v).getReg r = v :=
  Regs.get_set_same s.regs r v

theorem State.getReg_setReg_ne (s : State) (r r' : Reg) (v : Byte) (h : r' ≠ r) :
    (s.setReg r v).getReg r' = s.getReg r' :=
  Regs.get_set_ne s.regs r r' v h

@[simp] theorem State.getPair_setPair_same (s : State) (pp : RegPair) (v : Word) : (s.setPair pp v).getPair pp = v := by
  cases pp <;> simp [State.getPair, Regs.setPair]

theorem State.getPair_setPair_ne (s : State) (pp qq : RegPair) (v : Word) (h : qq ≠ pp) :
    (s.setPair pp v).getPair qq = s.getPair qq := by
  cases pp <;> cases qq <;> first | rfl | exact absurd rfl h

/-- Writing a pair back as it is changes nothing. -/
theorem State.setPair_getPair (s : State) (pp : RegPair) : s.setPair pp (s.getPair pp) = s := by
  cases pp <;> simp [State.setPair, State.getPair, Regs.setPair]

/-! ## Sums and differences -/

theorem add8_r_toNat (a b : Byte) (c : Bool) : (add8 a b c).r.toNat = (a.toNat + b.toNat + c.toNat) % 256 := by
  simp [add8]

@[simp] theorem add8_cy (a b : Byte) (c : Bool) : (add8 a b c).cy = decide (a.toNat + b.toNat + c.toNat > 255) := rfl

@[simp] theorem add8_ac (a b : Byte) (c : Bool) :
    (add8 a b c).ac = decide (a.toNat % 16 + b.toNat % 16 + c.toNat > 15) := rfl

/-- The difference in natural numbers: 256 is added before subtracting, and once more for the borrow-in. -/
theorem sub8_r_toNat (a b : Byte) (c : Bool) :
    (sub8 a b c).r.toNat = (a.toNat + 512 - b.toNat - c.toNat) % 256 := by
  have ha := a.isLt
  have hb := b.isLt
  have hc : c.toNat ≤ 1 := Bool.toNat_le c
  simp only [sub8, BitVec.toNat_ofInt]
  omega

/-- The borrow (40_arithmetic.md rule R135). -/
theorem sub8_cy (a b : Byte) (c : Bool) : (sub8 a b c).cy = decide (a.toNat < b.toNat + c.toNat) := by
  simp only [sub8, decide_eq_decide]
  omega

/-- The auxiliary carry of a difference: 1 when the low nibble does not borrow (decision D7). -/
theorem sub8_ac (a b : Byte) (c : Bool) :
    (sub8 a b c).ac = decide (b.toNat % 16 + c.toNat ≤ a.toNat % 16) := by
  have hb := b.isLt
  have hc : c.toNat ≤ 1 := Bool.toNat_le c
  simp only [sub8, lowNibble, BitVec.toNat_not, decide_eq_decide]
  omega

@[simp] theorem sign_eq (r : Byte) : sign r = decide (128 ≤ r.toNat) := by
  rw [sign, ← BitVec.msb_eq_getLsbD_last (x := r), BitVec.msb_eq_decide]

/-- The flag byte loses nothing of the five flags, whatever the three unused bits are (10_state.md rule R36). -/
@[simp] theorem Flags.ofByte_toByte (f : Flags) (u : BitVec 3) : Flags.ofByte (f.toByte u) = f := by
  obtain ⟨s, z, ac, p, cy⟩ := f
  revert s z ac p cy u
  decide

/-- Only the unused bits of the pushed byte depend on the draws (45_stack.md rule R313). -/
theorem Flags.toByte_masked (f : Flags) (u : BitVec 3) : f.toByte u &&& 0xD5#8 = f.toByte 0 := by
  obtain ⟨s, z, ac, p, cy⟩ := f
  revert s z ac p cy u
  decide

end Machine

end Sys2Proof
end

