-- ==== Sys2Proof/Laws/Ops.lean ====
section
/-!
SUPPORT. Sys2Proof/Laws/Ops.lean: for each shared operation with cases, one lemma that says once what it can do: the
conditional transfers, entering an interrupt, selecting a source, fetching, and the step.
-/

namespace Sys2Proof.Machine

/-! ## Conditional transfers -/

theorem State.jumpIf_taken (s : State) (cond : Cond) (target : Word) (h : s.flags.holds cond = true) :
    s.jumpIf cond target = s.jump target := by
  simp [State.jumpIf, h]

theorem State.jumpIf_not_taken (s : State) (cond : Cond) (target : Word) (h : s.flags.holds cond = false) :
    s.jumpIf cond target = s.advance 3 := by
  simp [State.jumpIf, h]

theorem State.callIf_taken (s : State) (cond : Cond) (target : Word) (h : s.flags.holds cond = true) :
    s.callIf cond target = s.callTo 3 target := by
  simp [State.callIf, h]

theorem State.callIf_not_taken (s : State) (cond : Cond) (target : Word) (h : s.flags.holds cond = false) :
    s.callIf cond target = s.advance 3 := by
  simp [State.callIf, h]

theorem State.retIf_taken (s : State) (cond : Cond) (h : s.flags.holds cond = true) : s.retIf cond = s.ret := by
  simp [State.retIf, h]

theorem State.retIf_not_taken (s : State) (cond : Cond) (h : s.flags.holds cond = false) :
    s.retIf cond = s.advance 1 := by
  simp [State.retIf, h]

/-! ## Interrupts -/

/-- What an entry that completes does (60_exceptions.md rule R347). -/
theorem State.enter_cases (s t : State) (src : Source) (h : s.enter src = .next t) :
    ∃ target, s.entryAddress src = some target ∧
      t = ((s.setCtl (s.ctl.acknowledge src)).push16 s.pc).jump target := by
  unfold State.enter at h
  split at h
  · rename_i target ht
    exact ⟨target, ht, by simpa using h.symm⟩
  · simp at h

/-- Only INTR's entry can be refused (rule R341). -/
theorem State.enter_completes (s : State) (src : Source) (h : src ≠ .intr) : ∃ t, s.enter src = .next t := by
  cases src <;> simp [State.enter, State.entryAddress] at h ⊢

/-- The selected source is recognised (rule R346). -/
theorem State.recognised_of_selected (s : State) (src : Source) (h : s.selected = some src) :
    s.recognised src = true :=
  List.find?_some h

/-- Nothing is selected exactly when nothing is recognised. -/
theorem State.selected_eq_none_iff (s : State) : s.selected = none ↔ ∀ src, s.recognised src = false := by
  constructor
  · intro h src
    have h1 := List.find?_eq_none.mp h src (by cases src <;> simp [sourcesByPriority])
    simpa using h1
  · intro h
    exact List.find?_eq_none.mpr (fun src _ => by simp [h src])

/-! ## Fetching -/

/-- The fetch reads what the decoder reads from the three bytes at the pc. -/
theorem State.fetch_eq_ok_iff (s : State) (i : Instr) :
    s.fetch = .ok i ↔
      ∃ rest, decode [s.fetchRead s.pc, s.fetchRead (s.pc + 1), s.fetchRead (s.pc + 2)] = .ok (i, rest) := by
  unfold State.fetch decode
  cases h : decodeOpcode (s.fetchRead s.pc) with
  | none => simp [h]
  | some t => cases t <;> simp [h]

/-- The fetch answers an unassigned opcode with its byte. -/
theorem State.fetch_eq_error_iff (s : State) (op : Byte) :
    s.fetch = .error op ↔ s.fetchRead s.pc = op ∧ decodeOpcode op = none := by
  unfold State.fetch
  cases h : decodeOpcode (s.fetchRead s.pc) with
  | none =>
    simp only [h]
    constructor
    · intro he
      have : s.fetchRead s.pc = op := by simpa using he
      exact ⟨this, this ▸ h⟩
    · rintro ⟨rfl, -⟩
      rfl
  | some t =>
    cases t <;> simp only [h, reduceCtorEq, false_iff, not_and] <;> (intro he; rw [← he, h]; simp)

/-! ## The step -/

/-- The state a step works on past the boundary when neither reset nor an interrupt is taken: inputs taken, edge latched,
`ei_delay` cleared (rule R330, lines 1 to 4). -/
theorem step_cases (s t : State) (h : step s = .next t) :
    (s.takeInput.now.resetIn = true ∧ t = s.takeInput.applyReset) ∨
    (s.takeInput.now.resetIn = false ∧
      ((∃ src, s.takeInput.latchEdge.selected = some src ∧ s.takeInput.latchEdge.endEiDelay.enter src = .next t) ∨
       (s.takeInput.latchEdge.selected = none ∧ s.ctl.halted = true ∧ t = s.takeInput.latchEdge.endEiDelay) ∨
       (s.takeInput.latchEdge.selected = none ∧ s.ctl.halted = false ∧
         ∃ i, s.takeInput.latchEdge.endEiDelay.fetch = .ok i ∧ exec i s.takeInput.latchEdge.endEiDelay = .next t))) := by
  unfold step at h
  simp only at h
  split at h
  · rename_i hr
    left
    exact ⟨hr, by simpa using h.symm⟩
  · rename_i hr
    right
    refine ⟨by simpa using hr, ?_⟩
    split at h
    · rename_i src hs
      exact .inl ⟨src, hs, h⟩
    · rename_i hs
      right
      have hh : s.takeInput.latchEdge.endEiDelay.ctl.halted = s.ctl.halted := rfl
      split at h
      · rename_i hl
        left
        exact ⟨hs, by rw [← hh]; exact hl, by simpa using h.symm⟩
      · rename_i hl
        right
        refine ⟨hs, by rw [← hh]; simpa using hl, ?_⟩
        split at h
        · rename_i i hi
          exact ⟨i, hi, h⟩
        · simp at h

/-- One boundary taken off `undisturbed` (10_state.md rule R43). -/
theorem State.undisturbed_succ (s : State) (k : Nat) :
    s.undisturbed (k + 1) = true ↔
      ((s.inputs.headD StepInput.quiet).resetIn = false ∧ s.takeInput.latchEdge.selected = none) ∧
        s.pastBoundary.undisturbed k = true := by
  simp only [State.undisturbed, Bool.and_eq_true, Bool.not_eq_true', Option.isNone_iff_eq_none]

/-- A boundary of the halt state that nothing disturbs is an idle step (10_state.md rule R43). -/
theorem step_of_halted_undisturbed (s : State) (k : Nat) (hh : s.ctl.halted = true) (hu : s.undisturbed (k + 1) = true) :
    step s = .next s.pastBoundary ∧ s.pastBoundary.undisturbed k = true := by
  obtain ⟨⟨hr, hs⟩, hk⟩ := (s.undisturbed_succ k).mp hu
  refine ⟨?_, hk⟩
  have hr' : s.takeInput.now.resetIn = false := hr
  have hh' : s.takeInput.latchEdge.endEiDelay.ctl.halted = true := hh
  simp only [step, hr', hs, hh', Bool.false_eq_true, if_false, if_true]
  rfl

/-- With no record left and no delay pending, the boundaries are alike: one that nothing disturbs stands for all. -/
theorem State.undisturbed_of_settled (k : Nat) (s : State) (hi : s.inputs = []) (he : s.ctl.eiDelay = false)
    (h : s.undisturbed 1 = true) : s.undisturbed k = true := by
  induction k generalizing s with
  | zero => rfl
  | succ k ih =>
    obtain ⟨hb, -⟩ := (s.undisturbed_succ 0).mp h
    refine (s.undisturbed_succ k).mpr ⟨hb, ih _ (by simp [State.pastBoundary, hi]) rfl ?_⟩
    refine (s.pastBoundary.undisturbed_succ 0).mpr ⟨⟨by simp [State.pastBoundary, hi, StepInput.quiet], ?_⟩, rfl⟩
    rw [← hb.2]
    simp [State.selected, State.recognised, State.pastBoundary, State.takeInput, State.latchEdge, State.setCtl, hi, he,
      StepInput.quiet]

/-- Two boundaries past the last record stand for all that follow. -/
theorem State.undisturbed_of_length (k : Nat) (s : State) (h : s.undisturbed (s.inputs.length + 2) = true) :
    s.undisturbed k = true := by
  induction k generalizing s with
  | zero => rfl
  | succ k ih =>
    obtain ⟨hb, hn⟩ := (s.undisturbed_succ _).mp h
    refine (s.undisturbed_succ k).mpr ⟨hb, ?_⟩
    cases hi : s.inputs with
    | nil => exact State.undisturbed_of_settled k _ (by simp [State.pastBoundary, hi]) rfl (by simpa [hi] using hn)
    | cons x rest => exact ih _ (by simpa [State.pastBoundary, hi] using hn)

end Sys2Proof.Machine
end

