-- ==== Sys2Proof/Laws/PerInstr.lean ====
section
/-!
SUPPORT. Sys2Proof/Laws/PerInstr.lean: facts stated of every instruction as syntax, one lemma a constructor.
-/

namespace Sys2Proof.Laws

/-- The encoding has as many bytes as the source's Bytes figure says (70_reset_and_hazards.md rule R393,
30_encoding.md rule R93). -/
def EncodedLength.Statement (i : Instr) : Prop :=
  ∀ taken, (encode i).length = (Machine.timing i taken).bytes

theorem EncodedLength.aci (data : Byte) : EncodedLength.Statement (.aci data) := fun taken => by cases taken <;> rfl
theorem EncodedLength.adcR (r : Reg) : EncodedLength.Statement (.adcR r) := fun taken => by cases taken <;> rfl
theorem EncodedLength.adcM : EncodedLength.Statement .adcM := fun taken => by cases taken <;> rfl
theorem EncodedLength.addR (r : Reg) : EncodedLength.Statement (.addR r) := fun taken => by cases taken <;> rfl
theorem EncodedLength.addM : EncodedLength.Statement .addM := fun taken => by cases taken <;> rfl
theorem EncodedLength.adi (data : Byte) : EncodedLength.Statement (.adi data) := fun taken => by cases taken <;> rfl
theorem EncodedLength.anaR (r : Reg) : EncodedLength.Statement (.anaR r) := fun taken => by cases taken <;> rfl
theorem EncodedLength.anaM : EncodedLength.Statement .anaM := fun taken => by cases taken <;> rfl
theorem EncodedLength.ani (data : Byte) : EncodedLength.Statement (.ani data) := fun taken => by cases taken <;> rfl
theorem EncodedLength.call (addr : Word) : EncodedLength.Statement (.call addr) := fun taken => by cases taken <;> rfl
theorem EncodedLength.cc (addr : Word) : EncodedLength.Statement (.cc addr) := fun taken => by cases taken <;> rfl
theorem EncodedLength.cnc (addr : Word) : EncodedLength.Statement (.cnc addr) := fun taken => by cases taken <;> rfl
theorem EncodedLength.cp (addr : Word) : EncodedLength.Statement (.cp addr) := fun taken => by cases taken <;> rfl
theorem EncodedLength.cm (addr : Word) : EncodedLength.Statement (.cm addr) := fun taken => by cases taken <;> rfl
theorem EncodedLength.cpe (addr : Word) : EncodedLength.Statement (.cpe addr) := fun taken => by cases taken <;> rfl
theorem EncodedLength.cpo (addr : Word) : EncodedLength.Statement (.cpo addr) := fun taken => by cases taken <;> rfl
theorem EncodedLength.cz (addr : Word) : EncodedLength.Statement (.cz addr) := fun taken => by cases taken <;> rfl
theorem EncodedLength.cnz (addr : Word) : EncodedLength.Statement (.cnz addr) := fun taken => by cases taken <;> rfl
theorem EncodedLength.cma : EncodedLength.Statement .cma := fun taken => by cases taken <;> rfl
theorem EncodedLength.cmc : EncodedLength.Statement .cmc := fun taken => by cases taken <;> rfl
theorem EncodedLength.cmpR (r : Reg) : EncodedLength.Statement (.cmpR r) := fun taken => by cases taken <;> rfl
theorem EncodedLength.cmpM : EncodedLength.Statement .cmpM := fun taken => by cases taken <;> rfl
theorem EncodedLength.cpi (data : Byte) : EncodedLength.Statement (.cpi data) := fun taken => by cases taken <;> rfl
theorem EncodedLength.daa : EncodedLength.Statement .daa := fun taken => by cases taken <;> rfl
theorem EncodedLength.dad (pp : RegPair) : EncodedLength.Statement (.dad pp) := fun taken => by cases taken <;> rfl
theorem EncodedLength.dcrR (r : Reg) : EncodedLength.Statement (.dcrR r) := fun taken => by cases taken <;> rfl
theorem EncodedLength.dcrM : EncodedLength.Statement .dcrM := fun taken => by cases taken <;> rfl
theorem EncodedLength.dcx (pp : RegPair) : EncodedLength.Statement (.dcx pp) := fun taken => by cases taken <;> rfl
theorem EncodedLength.di : EncodedLength.Statement .di := fun taken => by cases taken <;> rfl
theorem EncodedLength.ei : EncodedLength.Statement .ei := fun taken => by cases taken <;> rfl
theorem EncodedLength.hlt : EncodedLength.Statement .hlt := fun taken => by cases taken <;> rfl
theorem EncodedLength.inPort (port : Byte) : EncodedLength.Statement (.inPort port) := fun taken => by cases taken <;> rfl
theorem EncodedLength.inrR (r : Reg) : EncodedLength.Statement (.inrR r) := fun taken => by cases taken <;> rfl
theorem EncodedLength.inrM : EncodedLength.Statement .inrM := fun taken => by cases taken <;> rfl
theorem EncodedLength.inx (pp : RegPair) : EncodedLength.Statement (.inx pp) := fun taken => by cases taken <;> rfl
theorem EncodedLength.jmp (addr : Word) : EncodedLength.Statement (.jmp addr) := fun taken => by cases taken <;> rfl
theorem EncodedLength.jc (addr : Word) : EncodedLength.Statement (.jc addr) := fun taken => by cases taken <;> rfl
theorem EncodedLength.jnc (addr : Word) : EncodedLength.Statement (.jnc addr) := fun taken => by cases taken <;> rfl
theorem EncodedLength.jp (addr : Word) : EncodedLength.Statement (.jp addr) := fun taken => by cases taken <;> rfl
theorem EncodedLength.jm (addr : Word) : EncodedLength.Statement (.jm addr) := fun taken => by cases taken <;> rfl
theorem EncodedLength.jpe (addr : Word) : EncodedLength.Statement (.jpe addr) := fun taken => by cases taken <;> rfl
theorem EncodedLength.jpo (addr : Word) : EncodedLength.Statement (.jpo addr) := fun taken => by cases taken <;> rfl
theorem EncodedLength.jz (addr : Word) : EncodedLength.Statement (.jz addr) := fun taken => by cases taken <;> rfl
theorem EncodedLength.jnz (addr : Word) : EncodedLength.Statement (.jnz addr) := fun taken => by cases taken <;> rfl
theorem EncodedLength.lda (addr : Word) : EncodedLength.Statement (.lda addr) := fun taken => by cases taken <;> rfl
theorem EncodedLength.ldax (pp : RegPair) : EncodedLength.Statement (.ldax pp) := fun taken => by cases taken <;> rfl
theorem EncodedLength.lhld (addr : Word) : EncodedLength.Statement (.lhld addr) := fun taken => by cases taken <;> rfl
theorem EncodedLength.lxi (pp : RegPair) (data : Word) : EncodedLength.Statement (.lxi pp data) := fun taken => by cases taken <;> rfl
theorem EncodedLength.movRR (rd rs : Reg) : EncodedLength.Statement (.movRR rd rs) := fun taken => by cases taken <;> rfl
theorem EncodedLength.movMR (rs : Reg) : EncodedLength.Statement (.movMR rs) := fun taken => by cases taken <;> rfl
theorem EncodedLength.movRM (rd : Reg) : EncodedLength.Statement (.movRM rd) := fun taken => by cases taken <;> rfl
theorem EncodedLength.mviR (r : Reg) (data : Byte) : EncodedLength.Statement (.mviR r data) := fun taken => by cases taken <;> rfl
theorem EncodedLength.mviM (data : Byte) : EncodedLength.Statement (.mviM data) := fun taken => by cases taken <;> rfl
theorem EncodedLength.nop : EncodedLength.Statement .nop := fun taken => by cases taken <;> rfl
theorem EncodedLength.oraR (r : Reg) : EncodedLength.Statement (.oraR r) := fun taken => by cases taken <;> rfl
theorem EncodedLength.oraM : EncodedLength.Statement .oraM := fun taken => by cases taken <;> rfl
theorem EncodedLength.ori (data : Byte) : EncodedLength.Statement (.ori data) := fun taken => by cases taken <;> rfl
theorem EncodedLength.outPort (port : Byte) : EncodedLength.Statement (.outPort port) := fun taken => by cases taken <;> rfl
theorem EncodedLength.pchl : EncodedLength.Statement .pchl := fun taken => by cases taken <;> rfl
theorem EncodedLength.popRp (pp : RegPair) : EncodedLength.Statement (.popRp pp) := fun taken => by cases taken <;> rfl
theorem EncodedLength.popPsw : EncodedLength.Statement .popPsw := fun taken => by cases taken <;> rfl
theorem EncodedLength.pushRp (pp : RegPair) : EncodedLength.Statement (.pushRp pp) := fun taken => by cases taken <;> rfl
theorem EncodedLength.pushPsw : EncodedLength.Statement .pushPsw := fun taken => by cases taken <;> rfl
theorem EncodedLength.ral : EncodedLength.Statement .ral := fun taken => by cases taken <;> rfl
theorem EncodedLength.rar : EncodedLength.Statement .rar := fun taken => by cases taken <;> rfl
theorem EncodedLength.rlc : EncodedLength.Statement .rlc := fun taken => by cases taken <;> rfl
theorem EncodedLength.rrc : EncodedLength.Statement .rrc := fun taken => by cases taken <;> rfl
theorem EncodedLength.ret : EncodedLength.Statement .ret := fun taken => by cases taken <;> rfl
theorem EncodedLength.rc : EncodedLength.Statement .rc := fun taken => by cases taken <;> rfl
theorem EncodedLength.rnc : EncodedLength.Statement .rnc := fun taken => by cases taken <;> rfl
theorem EncodedLength.rp : EncodedLength.Statement .rp := fun taken => by cases taken <;> rfl
theorem EncodedLength.rm : EncodedLength.Statement .rm := fun taken => by cases taken <;> rfl
theorem EncodedLength.rpe : EncodedLength.Statement .rpe := fun taken => by cases taken <;> rfl
theorem EncodedLength.rpo : EncodedLength.Statement .rpo := fun taken => by cases taken <;> rfl
theorem EncodedLength.rz : EncodedLength.Statement .rz := fun taken => by cases taken <;> rfl
theorem EncodedLength.rnz : EncodedLength.Statement .rnz := fun taken => by cases taken <;> rfl
theorem EncodedLength.rim : EncodedLength.Statement .rim := fun taken => by cases taken <;> rfl
theorem EncodedLength.rst (n : BitVec 3) : EncodedLength.Statement (.rst n) := fun taken => by cases taken <;> rfl
theorem EncodedLength.sbbR (r : Reg) : EncodedLength.Statement (.sbbR r) := fun taken => by cases taken <;> rfl
theorem EncodedLength.sbbM : EncodedLength.Statement .sbbM := fun taken => by cases taken <;> rfl
theorem EncodedLength.sbi (data : Byte) : EncodedLength.Statement (.sbi data) := fun taken => by cases taken <;> rfl
theorem EncodedLength.shld (addr : Word) : EncodedLength.Statement (.shld addr) := fun taken => by cases taken <;> rfl
theorem EncodedLength.sim : EncodedLength.Statement .sim := fun taken => by cases taken <;> rfl
theorem EncodedLength.sphl : EncodedLength.Statement .sphl := fun taken => by cases taken <;> rfl
theorem EncodedLength.sta (addr : Word) : EncodedLength.Statement (.sta addr) := fun taken => by cases taken <;> rfl
theorem EncodedLength.stax (pp : RegPair) : EncodedLength.Statement (.stax pp) := fun taken => by cases taken <;> rfl
theorem EncodedLength.stc : EncodedLength.Statement .stc := fun taken => by cases taken <;> rfl
theorem EncodedLength.subR (r : Reg) : EncodedLength.Statement (.subR r) := fun taken => by cases taken <;> rfl
theorem EncodedLength.subM : EncodedLength.Statement .subM := fun taken => by cases taken <;> rfl
theorem EncodedLength.sui (data : Byte) : EncodedLength.Statement (.sui data) := fun taken => by cases taken <;> rfl
theorem EncodedLength.xchg : EncodedLength.Statement .xchg := fun taken => by cases taken <;> rfl
theorem EncodedLength.xraR (r : Reg) : EncodedLength.Statement (.xraR r) := fun taken => by cases taken <;> rfl
theorem EncodedLength.xraM : EncodedLength.Statement .xraM := fun taken => by cases taken <;> rfl
theorem EncodedLength.xri (data : Byte) : EncodedLength.Statement (.xri data) := fun taken => by cases taken <;> rfl
theorem EncodedLength.xthl : EncodedLength.Statement .xthl := fun taken => by cases taken <;> rfl

end Sys2Proof.Laws
end

