-- ==== Sys2Proof/Tests/Slice0.lean ====
section
/-!
SUPPORT. Sys2Proof/Tests/Slice0.lean: the model's own tests. Every expected result is the spec's: the well-formedness of
30_encoding.md rule R110, the words of its map (rule R103), the rows of 95_test_vectors.md section 2 (their ids are named),
and the resets and interrupts of its section 2.7. At the end, for every statement with hypotheses, a state and
operands that meet them.
-/

namespace Sys2Proof.Tests

open Sys2Proof.Machine

/-! ## Well-formedness: each check refuses an ill-formed term -/

theorem test_wf_no_push_sp : (Instr.pushRp .sp).wellFormed = false := by decide
theorem test_wf_no_pop_sp : (Instr.popRp .sp).wellFormed = false := by decide
theorem test_wf_no_ldax_hl : (Instr.ldax .hl).wellFormed = false := by decide
theorem test_wf_no_ldax_sp : (Instr.ldax .sp).wellFormed = false := by decide
theorem test_wf_no_stax_hl : (Instr.stax .hl).wellFormed = false := by decide
theorem test_wf_no_stax_sp : (Instr.stax .sp).wellFormed = false := by decide
theorem test_wf_admits : [Instr.pushRp .hl, .popRp .bc, .ldax .bc, .stax .de, .lxi .sp 0].all Instr.wellFormed = true := by
  decide

/-! ## Decoding: a word for every constructor, bit by bit from the Encoding line of its rule -/

/-- The bytes decode to the instruction, with nothing left over. -/
def decodesTo (bytes : List Byte) (i : Instr) : Bool :=
  match decode bytes with
  | .ok (j, []) => decide (j = i)
  | _ => false

theorem test_decode_arithmetic :
    ([
      ([0b11001110#8, 0b01000010#8], .aci 0x42#8),
      ([0b10001001#8], .adcR .c),
      ([0b10001110#8], .adcM),
      ([0b10000010#8], .addR .d),
      ([0b10000110#8], .addM),
      ([0b11000110#8, 0b01001000#8], .adi 0x48#8),
      ([0b00100111#8], .daa),
      ([0b00111001#8], .dad .sp),
      ([0b00001101#8], .dcrR .c),
      ([0b00110101#8], .dcrM),
      ([0b00011011#8], .dcx .de),
      ([0b00010100#8], .inrR .d),
      ([0b00110100#8], .inrM),
      ([0b00100011#8], .inx .hl),
      ([0b10011101#8], .sbbR .l),
      ([0b10011110#8], .sbbM),
      ([0b11011110#8, 0b00000001#8], .sbi 0x01#8),
      ([0b10010000#8], .subR .b),
      ([0b10010110#8], .subM),
      ([0b11010110#8, 0b00000001#8], .sui 0x01#8)] : List (List Byte × Instr)).all (fun p => decodesTo p.1 p.2) = true := by decide

theorem test_decode_logic :
    ([
      ([0b10100001#8], .anaR .c),
      ([0b10100110#8], .anaM),
      ([0b11100110#8, 0b00001111#8], .ani 0x0F#8),
      ([0b00101111#8], .cma),
      ([0b00111111#8], .cmc),
      ([0b10111011#8], .cmpR .e),
      ([0b10111110#8], .cmpM),
      ([0b11111110#8, 0b01000000#8], .cpi 0x40#8),
      ([0b10110111#8], .oraR .a),
      ([0b10110110#8], .oraM),
      ([0b11110110#8, 0b10000000#8], .ori 0x80#8),
      ([0b00010111#8], .ral),
      ([0b00011111#8], .rar),
      ([0b00000111#8], .rlc),
      ([0b00001111#8], .rrc),
      ([0b00110111#8], .stc),
      ([0b10101010#8], .xraR .d),
      ([0b10101110#8], .xraM),
      ([0b11101110#8, 0b10000001#8], .xri 0x81#8)] : List (List Byte × Instr)).all (fun p => decodesTo p.1 p.2) = true := by decide

theorem test_decode_calls_and_jumps :
    ([
      ([0b11001101#8, 0b01000101#8, 0b00100011#8], .call 0x2345#16),
      ([0b11000100#8, 0b01000101#8, 0b00100011#8], .cnz 0x2345#16),
      ([0b11001100#8, 0b01000101#8, 0b00100011#8], .cz 0x2345#16),
      ([0b11010100#8, 0b01000101#8, 0b00100011#8], .cnc 0x2345#16),
      ([0b11011100#8, 0b01000101#8, 0b00100011#8], .cc 0x2345#16),
      ([0b11100100#8, 0b01000101#8, 0b00100011#8], .cpo 0x2345#16),
      ([0b11101100#8, 0b01000101#8, 0b00100011#8], .cpe 0x2345#16),
      ([0b11110100#8, 0b01000101#8, 0b00100011#8], .cp 0x2345#16),
      ([0b11111100#8, 0b01000101#8, 0b00100011#8], .cm 0x2345#16),
      ([0b11000011#8, 0b01000101#8, 0b00100011#8], .jmp 0x2345#16),
      ([0b11000010#8, 0b01000101#8, 0b00100011#8], .jnz 0x2345#16),
      ([0b11001010#8, 0b01000101#8, 0b00100011#8], .jz 0x2345#16),
      ([0b11010010#8, 0b01000101#8, 0b00100011#8], .jnc 0x2345#16),
      ([0b11011010#8, 0b01000101#8, 0b00100011#8], .jc 0x2345#16),
      ([0b11100010#8, 0b01000101#8, 0b00100011#8], .jpo 0x2345#16),
      ([0b11101010#8, 0b01000101#8, 0b00100011#8], .jpe 0x2345#16),
      ([0b11110010#8, 0b01000101#8, 0b00100011#8], .jp 0x2345#16),
      ([0b11111010#8, 0b01000101#8, 0b00100011#8], .jm 0x2345#16)] : List (List Byte × Instr)).all (fun p => decodesTo p.1 p.2) = true := by decide

theorem test_decode_returns :
    ([
      ([0b11101001#8], .pchl),
      ([0b11001001#8], .ret),
      ([0b11000000#8], .rnz),
      ([0b11001000#8], .rz),
      ([0b11010000#8], .rnc),
      ([0b11011000#8], .rc),
      ([0b11100000#8], .rpo),
      ([0b11101000#8], .rpe),
      ([0b11110000#8], .rp),
      ([0b11111000#8], .rm),
      ([0b11000111#8], .rst 0#3),
      ([0b11111111#8], .rst 7#3)] : List (List Byte × Instr)).all (fun p => decodesTo p.1 p.2) = true := by decide

theorem test_decode_control :
    ([
      ([0b11110011#8], .di),
      ([0b11111011#8], .ei),
      ([0b01110110#8], .hlt),
      ([0b11011011#8, 0b10000100#8], .inPort 0x84#8),
      ([0b00000000#8], .nop),
      ([0b11010011#8, 0b00000001#8], .outPort 0x01#8),
      ([0b00100000#8], .rim),
      ([0b00110000#8], .sim)] : List (List Byte × Instr)).all (fun p => decodesTo p.1 p.2) = true := by decide

theorem test_decode_transfer :
    ([
      ([0b00111010#8, 0b00110100#8, 0b00010010#8], .lda 0x1234#16),
      ([0b00001010#8], .ldax .bc),
      ([0b00101010#8, 0b00110100#8, 0b00010010#8], .lhld 0x1234#16),
      ([0b00110001#8, 0b00110100#8, 0b00010010#8], .lxi .sp 0x1234#16),
      ([0b01100011#8], .movRR .h .e),
      ([0b01110010#8], .movMR .d),
      ([0b01111110#8], .movRM .a),
      ([0b00010110#8, 0b00010110#8], .mviR .d 0x16#8),
      ([0b00110110#8, 0b00111100#8], .mviM 0x3C#8),
      ([0b00100010#8, 0b00110100#8, 0b00010010#8], .shld 0x1234#16),
      ([0b11111001#8], .sphl),
      ([0b00110010#8, 0b00110100#8, 0b00010010#8], .sta 0x1234#16),
      ([0b00010010#8], .stax .de),
      ([0b11101011#8], .xchg)] : List (List Byte × Instr)).all (fun p => decodesTo p.1 p.2) = true := by decide

theorem test_decode_stack :
    ([
      ([0b11100001#8], .popRp .hl),
      ([0b11110001#8], .popPsw),
      ([0b11010101#8], .pushRp .de),
      ([0b11110101#8], .pushPsw),
      ([0b11100011#8], .xthl)] : List (List Byte × Instr)).all (fun p => decodesTo p.1 p.2) = true := by decide

/-- The ten bytes of rule R107, and an instruction cut short. -/
theorem test_decode_refuses :
    (unassignedOpcodes.all fun op => decide (decode [op, 0, 0] = .error (.unassignedOpcode op))) = true ∧
      decode [0xC3#8, 0x00#8] = .error .truncated ∧ decode [] = .error .truncated := by decide

/-- The table's numbering: the first byte is the least significant. -/
theorem test_decodeTableWord :
    decodeTableWord 24 0x12343A = some (.lda 0x1234#16) ∧ decodeTableWord 16 0x10D3 = some (.outPort 0x10#8) ∧
      decodeTableWord 8 0x76 = some .hlt ∧ decodeTableWord 8 0xC3 = some (.jmp 0#16) ∧ decodeTableWord 8 0xED = none := by
  decide

/-! ## One step -/

/-- The outcome is a next state, and the check holds of it. -/
def nextIs (o : Host.Outcome State Fault Refusal) (p : State → Bool) : Bool :=
  match o with
  | .next t => p t
  | _ => false

/-- One step from `s` with the bytes placed at its pc. -/
def stepsTo (bytes : List Byte) (s : State) (p : State → Bool) : Bool := nextIs (step (s.load s.pc bytes)) p

/-- The start of every row of 95_test_vectors.md section 2: pc = 2000H, SP = 3000H, the rest as after reset. -/
def start : State := { State.reset with pc := 0x2000#16, sp := 0x3000#16 }

/-- All registers 00H. -/
def zeroRegs : Regs := { b := 0, c := 0, d := 0, e := 0, h := 0, l := 0, a := 0 }

/-- All flags 0. -/
def noFlags : Flags := { s := false, z := false, ac := false, p := false, cy := false }

/-- All flags 1. -/
def allFlags : Flags := { s := true, z := true, ac := true, p := true, cy := true }

/-! Arithmetic (rows A of the source) -/

/-- Row A1. -/
theorem test_add_r :
    stepsTo [0x82#8] { start with regs := { zeroRegs with a := 0x6C#8, d := 0x2E#8 } } (fun t =>
      decide (t.regs = { zeroRegs with a := 0x9A#8, d := 0x2E#8 }) &&
        decide (t.flags = { noFlags with s := true, ac := true, p := true }) && t.pc == 0x2001#16) = true := by
  decide

/-- Row A6. -/
theorem test_add_m :
    stepsTo [0x86#8]
      { start with
        regs := { zeroRegs with a := 0x12#8, h := 0x20#8, l := 0x50#8 }
        mem := [(0x2050, 0x34#8)] } (fun t =>
      decide (t.regs = { zeroRegs with a := 0x46#8, h := 0x20#8, l := 0x50#8 }) && decide (t.flags = noFlags) &&
        t.pc == 0x2001#16) = true := by
  decide

/-- Row A8. -/
theorem test_adc_r :
    stepsTo [0x89#8]
      { start with
        regs := { zeroRegs with a := 0x3D#8, c := 0x42#8 }
        flags := { noFlags with cy := true } } (fun t =>
      decide (t.regs = { zeroRegs with a := 0x80#8, c := 0x42#8 }) &&
        decide (t.flags = { noFlags with s := true, ac := true }) && t.pc == 0x2001#16) = true := by
  decide

/-- Row A11. -/
theorem test_adc_m :
    stepsTo [0x8E#8]
      { start with
        regs := { zeroRegs with a := 0x0F#8, h := 0x20#8, l := 0x50#8 }
        flags := { noFlags with cy := true }
        mem := [(0x2050, 0xF0#8)] } (fun t =>
      decide (t.regs = { zeroRegs with h := 0x20#8, l := 0x50#8 }) &&
        decide (t.flags = { noFlags with z := true, ac := true, p := true, cy := true }) && t.pc == 0x2001#16) = true := by
  decide

/-- Row A12. -/
theorem test_adi :
    stepsTo [0xC6#8, 0x48#8] { start with regs := { zeroRegs with a := 0x4A#8 } } (fun t =>
      decide (t.regs = { zeroRegs with a := 0x92#8 }) &&
        decide (t.flags = { noFlags with s := true, ac := true }) && t.pc == 0x2002#16) = true := by
  decide

/-- Row A14. -/
theorem test_aci :
    stepsTo [0xCE#8, 0x42#8]
      { start with regs := { zeroRegs with a := 0x14#8 }, flags := { noFlags with cy := true } } (fun t =>
      decide (t.regs = { zeroRegs with a := 0x57#8 }) && decide (t.flags = noFlags) && t.pc == 0x2002#16) = true := by
  decide

/-- Row A19. -/
theorem test_sub_r :
    stepsTo [0x91#8] { start with regs := { zeroRegs with c := 0x01#8 } } (fun t =>
      decide (t.regs = { zeroRegs with a := 0xFF#8, c := 0x01#8 }) &&
        decide (t.flags = { noFlags with s := true, p := true, cy := true }) && t.pc == 0x2001#16) = true := by
  decide

/-- Row A22. -/
theorem test_sub_m :
    stepsTo [0x96#8]
      { start with
        regs := { zeroRegs with a := 0x50#8, h := 0x20#8, l := 0x50#8 }
        mem := [(0x2050, 0x60#8)] } (fun t =>
      decide (t.regs = { zeroRegs with a := 0xF0#8, h := 0x20#8, l := 0x50#8 }) &&
        decide (t.flags = { noFlags with s := true, ac := true, p := true, cy := true }) && t.pc == 0x2001#16) = true := by
  decide

/-- Row A25. -/
theorem test_sbb_r :
    stepsTo [0x98#8]
      { start with regs := { zeroRegs with b := 0xFF#8 }, flags := { noFlags with cy := true } } (fun t =>
      decide (t.regs = { zeroRegs with b := 0xFF#8 }) &&
        decide (t.flags = { noFlags with z := true, p := true, cy := true }) && t.pc == 0x2001#16) = true := by
  decide

/-- Row A28. -/
theorem test_sbb_m :
    stepsTo [0x9E#8]
      { start with
        regs := { zeroRegs with a := 0x37#8, h := 0x20#8, l := 0x50#8 }
        flags := { noFlags with cy := true }
        mem := [(0x2050, 0x25#8)] } (fun t =>
      decide (t.regs = { zeroRegs with a := 0x11#8, h := 0x20#8, l := 0x50#8 }) &&
        decide (t.flags = { noFlags with ac := true, p := true }) && t.pc == 0x2001#16) = true := by
  decide

/-- Row A30. -/
theorem test_sui :
    stepsTo [0xD6#8, 0x0F#8] { start with regs := { zeroRegs with a := 0xFF#8 } } (fun t =>
      decide (t.regs = { zeroRegs with a := 0xF0#8 }) &&
        decide (t.flags = { noFlags with s := true, ac := true, p := true }) && t.pc == 0x2002#16) = true := by
  decide

/-- Row A31. -/
theorem test_sbi :
    stepsTo [0xDE#8, 0x01#8] { start with flags := { noFlags with cy := true } } (fun t =>
      decide (t.regs = { zeroRegs with a := 0xFE#8 }) &&
        decide (t.flags = { noFlags with s := true, cy := true }) && t.pc == 0x2002#16) = true := by
  decide

/-- Row A34. -/
theorem test_inr_r :
    stepsTo [0x04#8]
      { start with regs := { zeroRegs with b := 0xFF#8 }, flags := { noFlags with cy := true } } (fun t =>
      decide (t.regs = zeroRegs) &&
        decide (t.flags = { noFlags with z := true, ac := true, p := true, cy := true }) && t.pc == 0x2001#16) = true := by
  decide

/-- Row A37. -/
theorem test_inr_m :
    stepsTo [0x34#8]
      { start with regs := { zeroRegs with h := 0x20#8, l := 0x50#8 }, mem := [(0x2050, 0x99#8)] } (fun t =>
      decide (t.regs = { zeroRegs with h := 0x20#8, l := 0x50#8 }) &&
        decide (t.flags = { noFlags with s := true, p := true }) && t.pc == 0x2001#16 &&
        t.memRead 0x2050#16 == 0x9A#8) = true := by
  decide

/-- Row A38. -/
theorem test_dcr_r :
    stepsTo [0x0D#8] start (fun t =>
      decide (t.regs = { zeroRegs with c := 0xFF#8 }) &&
        decide (t.flags = { noFlags with s := true, p := true }) && t.pc == 0x2001#16) = true := by
  decide

/-- Row A42. -/
theorem test_dcr_m :
    stepsTo [0x35#8]
      { start with regs := { zeroRegs with h := 0x20#8, l := 0x50#8 }, mem := [(0x2050, 0x40#8)] } (fun t =>
      decide (t.regs = { zeroRegs with h := 0x20#8, l := 0x50#8 }) &&
        decide (t.flags = { noFlags with p := true }) && t.pc == 0x2001#16 && t.memRead 0x2050#16 == 0x3F#8) = true := by
  decide

/-- Row A43. -/
theorem test_inx :
    stepsTo [0x23#8] { start with regs := { zeroRegs with h := 0xFF#8, l := 0xFF#8 }, flags := allFlags } (fun t =>
      decide (t.regs = zeroRegs) && decide (t.flags = allFlags) && t.pc == 0x2001#16) = true := by
  decide

/-- Row A46. -/
theorem test_dcx :
    stepsTo [0x1B#8] start (fun t =>
      decide (t.regs = { zeroRegs with d := 0xFF#8, e := 0xFF#8 }) && decide (t.flags = noFlags) &&
        t.pc == 0x2001#16) = true := by
  decide

/-- Row A52. -/
theorem test_dad :
    stepsTo [0x29#8]
      { start with
        regs := { zeroRegs with h := 0x12#8, l := 0x34#8 }
        flags := { noFlags with cy := true } } (fun t =>
      decide (t.regs = { zeroRegs with h := 0x24#8, l := 0x68#8 }) && decide (t.flags = noFlags) &&
        t.pc == 0x2001#16) = true := by
  decide

/-- Row A54. -/
theorem test_daa_both_digits :
    stepsTo [0x27#8] { start with regs := { zeroRegs with a := 0x9B#8 } } (fun t =>
      decide (t.regs = { zeroRegs with a := 0x01#8 }) &&
        decide (t.flags = { noFlags with ac := true, cy := true }) && t.pc == 0x2001#16) = true := by
  decide

/-- Row A56. -/
theorem test_daa_half_carry :
    stepsTo [0x27#8]
      { start with regs := { zeroRegs with a := 0x12#8 }, flags := { noFlags with ac := true } } (fun t =>
      decide (t.regs = { zeroRegs with a := 0x18#8 }) && decide (t.flags = { noFlags with p := true }) &&
        t.pc == 0x2001#16) = true := by
  decide

/-! Logic (rows L) -/

/-- Row L1. -/
theorem test_ana_r :
    stepsTo [0xA0#8]
      { start with
        regs := { zeroRegs with a := 0x54#8, b := 0x82#8 }
        flags := { noFlags with cy := true } } (fun t =>
      decide (t.regs = { zeroRegs with b := 0x82#8 }) &&
        decide (t.flags = { noFlags with z := true, ac := true, p := true }) && t.pc == 0x2001#16) = true := by
  decide

/-- Row L4. -/
theorem test_ana_m :
    stepsTo [0xA6#8]
      { start with
        regs := { zeroRegs with a := 0xF0#8, h := 0x20#8, l := 0x50#8 }
        mem := [(0x2050, 0x8F#8)] } (fun t =>
      decide (t.regs = { zeroRegs with a := 0x80#8, h := 0x20#8, l := 0x50#8 }) &&
        decide (t.flags = { noFlags with s := true, ac := true }) && t.pc == 0x2001#16) = true := by
  decide

/-- Row L5. -/
theorem test_ani :
    stepsTo [0xE6#8, 0x0F#8] { start with regs := { zeroRegs with a := 0x3A#8 } } (fun t =>
      decide (t.regs = { zeroRegs with a := 0x0A#8 }) &&
        decide (t.flags = { noFlags with ac := true, p := true }) && t.pc == 0x2002#16) = true := by
  decide

/-- Row L7. -/
theorem test_ora_r :
    stepsTo [0xB0#8]
      { start with
        regs := { zeroRegs with a := 0x33#8, b := 0x0F#8 }
        flags := { noFlags with ac := true, cy := true } } (fun t =>
      decide (t.regs = { zeroRegs with a := 0x3F#8, b := 0x0F#8 }) &&
        decide (t.flags = { noFlags with p := true }) && t.pc == 0x2001#16) = true := by
  decide

/-- Row L9. -/
theorem test_ora_m :
    stepsTo [0xB6#8]
      { start with
        regs := { zeroRegs with a := 0x01#8, h := 0x20#8, l := 0x50#8 }
        mem := [(0x2050, 0x80#8)] } (fun t =>
      decide (t.regs = { zeroRegs with a := 0x81#8, h := 0x20#8, l := 0x50#8 }) &&
        decide (t.flags = { noFlags with s := true, p := true }) && t.pc == 0x2001#16) = true := by
  decide

/-- Row L10. -/
theorem test_ori :
    stepsTo [0xF6#8, 0x80#8] { start with regs := { zeroRegs with a := 0x05#8 } } (fun t =>
      decide (t.regs = { zeroRegs with a := 0x85#8 }) && decide (t.flags = { noFlags with s := true }) &&
        t.pc == 0x2002#16) = true := by
  decide

/-- Row L12. -/
theorem test_xra_r :
    stepsTo [0xA8#8] { start with regs := { zeroRegs with a := 0xFF#8, b := 0x0F#8 } } (fun t =>
      decide (t.regs = { zeroRegs with a := 0xF0#8, b := 0x0F#8 }) &&
        decide (t.flags = { noFlags with s := true, p := true }) && t.pc == 0x2001#16) = true := by
  decide

/-- Row L14. -/
theorem test_xra_m :
    stepsTo [0xAE#8]
      { start with
        regs := { zeroRegs with a := 0x55#8, h := 0x20#8, l := 0x50#8 }
        mem := [(0x2050, 0xAA#8)] } (fun t =>
      decide (t.regs = { zeroRegs with a := 0xFF#8, h := 0x20#8, l := 0x50#8 }) &&
        decide (t.flags = { noFlags with s := true, p := true }) && t.pc == 0x2001#16) = true := by
  decide

/-- Row L15. -/
theorem test_xri :
    stepsTo [0xEE#8, 0x81#8] { start with regs := { zeroRegs with a := 0x3B#8 } } (fun t =>
      decide (t.regs = { zeroRegs with a := 0xBA#8 }) && decide (t.flags = { noFlags with s := true }) &&
        t.pc == 0x2002#16) = true := by
  decide

/-- Row L20. -/
theorem test_cmp_r :
    stepsTo [0xBB#8] { start with regs := { zeroRegs with a := 0x02#8, e := 0xFE#8 } } (fun t =>
      decide (t.regs = { zeroRegs with a := 0x02#8, e := 0xFE#8 }) &&
        decide (t.flags = { noFlags with cy := true }) && t.pc == 0x2001#16) = true := by
  decide

/-- Row L22. -/
theorem test_cmp_m :
    stepsTo [0xBE#8]
      { start with
        regs := { zeroRegs with a := 0x80#8, h := 0x20#8, l := 0x50#8 }
        mem := [(0x2050, 0x7F#8)] } (fun t =>
      decide (t.regs = { zeroRegs with a := 0x80#8, h := 0x20#8, l := 0x50#8 }) && decide (t.flags = noFlags) &&
        t.pc == 0x2001#16) = true := by
  decide

/-- Row L25. -/
theorem test_cpi :
    stepsTo [0xFE#8, 0x80#8] { start with regs := { zeroRegs with a := 0x7F#8 } } (fun t =>
      decide (t.regs = { zeroRegs with a := 0x7F#8 }) &&
        decide (t.flags = { noFlags with s := true, ac := true, p := true, cy := true }) && t.pc == 0x2002#16) = true := by
  decide

/-- Row L26. -/
theorem test_cma :
    stepsTo [0x2F#8] { start with regs := { zeroRegs with a := 0x51#8 }, flags := allFlags } (fun t =>
      decide (t.regs = { zeroRegs with a := 0xAE#8 }) && decide (t.flags = allFlags) && t.pc == 0x2001#16) = true := by
  decide

/-- Row L28. -/
theorem test_cmc :
    stepsTo [0x3F#8] { start with flags := { noFlags with cy := true } } (fun t =>
      decide (t.regs = zeroRegs) && decide (t.flags = noFlags) && t.pc == 0x2001#16) = true := by
  decide

/-- Row L31. -/
theorem test_stc :
    stepsTo [0x37#8] { start with flags := { noFlags with p := true, cy := true } } (fun t =>
      decide (t.regs = zeroRegs) && decide (t.flags = { noFlags with p := true, cy := true }) && t.pc == 0x2001#16) = true := by
  decide

/-- Row L32. -/
theorem test_rlc :
    stepsTo [0x07#8] { start with regs := { zeroRegs with a := 0xF2#8 } } (fun t =>
      decide (t.regs = { zeroRegs with a := 0xE5#8 }) && decide (t.flags = { noFlags with cy := true }) &&
        t.pc == 0x2001#16) = true := by
  decide

/-- Row L34. -/
theorem test_rrc :
    stepsTo [0x0F#8]
      { start with regs := { zeroRegs with a := 0xF2#8 }, flags := { noFlags with cy := true } } (fun t =>
      decide (t.regs = { zeroRegs with a := 0x79#8 }) && decide (t.flags = noFlags) && t.pc == 0x2001#16) = true := by
  decide

/-- Row L37. -/
theorem test_ral :
    stepsTo [0x17#8]
      { start with regs := { zeroRegs with a := 0x40#8 }, flags := { noFlags with cy := true } } (fun t =>
      decide (t.regs = { zeroRegs with a := 0x81#8 }) && decide (t.flags = noFlags) && t.pc == 0x2001#16) = true := by
  decide

/-- Row L39. -/
theorem test_rar :
    stepsTo [0x1F#8]
      { start with regs := { zeroRegs with a := 0x6A#8 }, flags := { noFlags with cy := true } } (fun t =>
      decide (t.regs = { zeroRegs with a := 0xB5#8 }) && decide (t.flags = noFlags) && t.pc == 0x2001#16) = true := by
  decide

/-! Branches (rows B): each conditional one taken and not taken -/

/-- Row B2. -/
theorem test_call_wraps :
    stepsTo [0xCD#8, 0x50#8, 0x30#8] { start with sp := 0x0001#16 } (fun t =>
      decide (t.regs = zeroRegs) && decide (t.flags = noFlags) && t.pc == 0x3050#16 && t.sp == 0xFFFF#16 &&
        t.memRead 0x0000#16 == 0x20#8 && t.memRead 0xFFFF#16 == 0x03#8) = true := by
  decide

/-- Rows B4 and B5. -/
theorem test_cnz :
    stepsTo [0xC4#8, 0x45#8, 0x23#8]
      { start with flags := { noFlags with s := true, ac := true, p := true, cy := true } } (fun t =>
      decide (t.regs = zeroRegs) &&
        decide (t.flags = { noFlags with s := true, ac := true, p := true, cy := true }) && t.pc == 0x2345#16 &&
        t.sp == 0x2FFE#16 && t.memRead 0x2FFE#16 == 0x03#8 && t.memRead 0x2FFF#16 == 0x20#8) &&
    stepsTo [0xC4#8, 0x45#8, 0x23#8] { start with flags := { noFlags with z := true } } (fun t =>
      decide (t.regs = zeroRegs) && decide (t.flags = { noFlags with z := true }) && t.pc == 0x2003#16) = true := by
  decide

/-- Rows B6 and B7. -/
theorem test_cz :
    stepsTo [0xCC#8, 0x45#8, 0x23#8]
      { start with flags := { noFlags with s := true, ac := true, p := true, cy := true } } (fun t =>
      decide (t.regs = zeroRegs) &&
        decide (t.flags = { noFlags with s := true, ac := true, p := true, cy := true }) && t.pc == 0x2003#16) &&
    stepsTo [0xCC#8, 0x45#8, 0x23#8] { start with flags := { noFlags with z := true } } (fun t =>
      decide (t.regs = zeroRegs) && decide (t.flags = { noFlags with z := true }) && t.pc == 0x2345#16 &&
        t.sp == 0x2FFE#16 && t.memRead 0x2FFE#16 == 0x03#8 && t.memRead 0x2FFF#16 == 0x20#8) = true := by
  decide

/-- Rows B8 and B9. -/
theorem test_cnc :
    stepsTo [0xD4#8, 0x45#8, 0x23#8]
      { start with flags := { noFlags with s := true, z := true, ac := true, p := true } } (fun t =>
      decide (t.regs = zeroRegs) &&
        decide (t.flags = { noFlags with s := true, z := true, ac := true, p := true }) && t.pc == 0x2345#16 &&
        t.sp == 0x2FFE#16 && t.memRead 0x2FFE#16 == 0x03#8 && t.memRead 0x2FFF#16 == 0x20#8) &&
    stepsTo [0xD4#8, 0x45#8, 0x23#8] { start with flags := { noFlags with cy := true } } (fun t =>
      decide (t.regs = zeroRegs) && decide (t.flags = { noFlags with cy := true }) && t.pc == 0x2003#16) = true := by
  decide

/-- Rows B10 and B11. -/
theorem test_cc :
    stepsTo [0xDC#8, 0x45#8, 0x23#8]
      { start with flags := { noFlags with s := true, z := true, ac := true, p := true } } (fun t =>
      decide (t.regs = zeroRegs) &&
        decide (t.flags = { noFlags with s := true, z := true, ac := true, p := true }) && t.pc == 0x2003#16) &&
    stepsTo [0xDC#8, 0x45#8, 0x23#8] { start with flags := { noFlags with cy := true } } (fun t =>
      decide (t.regs = zeroRegs) && decide (t.flags = { noFlags with cy := true }) && t.pc == 0x2345#16 &&
        t.sp == 0x2FFE#16 && t.memRead 0x2FFE#16 == 0x03#8 && t.memRead 0x2FFF#16 == 0x20#8) = true := by
  decide

/-- Rows B12 and B13. -/
theorem test_cpo :
    stepsTo [0xE4#8, 0x45#8, 0x23#8]
      { start with flags := { noFlags with s := true, z := true, ac := true, cy := true } } (fun t =>
      decide (t.regs = zeroRegs) &&
        decide (t.flags = { noFlags with s := true, z := true, ac := true, cy := true }) && t.pc == 0x2345#16 &&
        t.sp == 0x2FFE#16 && t.memRead 0x2FFE#16 == 0x03#8 && t.memRead 0x2FFF#16 == 0x20#8) &&
    stepsTo [0xE4#8, 0x45#8, 0x23#8] { start with flags := { noFlags with p := true } } (fun t =>
      decide (t.regs = zeroRegs) && decide (t.flags = { noFlags with p := true }) && t.pc == 0x2003#16) = true := by
  decide

/-- Rows B14 and B15. -/
theorem test_cpe :
    stepsTo [0xEC#8, 0x45#8, 0x23#8]
      { start with flags := { noFlags with s := true, z := true, ac := true, cy := true } } (fun t =>
      decide (t.regs = zeroRegs) &&
        decide (t.flags = { noFlags with s := true, z := true, ac := true, cy := true }) && t.pc == 0x2003#16) &&
    stepsTo [0xEC#8, 0x45#8, 0x23#8] { start with flags := { noFlags with p := true } } (fun t =>
      decide (t.regs = zeroRegs) && decide (t.flags = { noFlags with p := true }) && t.pc == 0x2345#16 &&
        t.sp == 0x2FFE#16 && t.memRead 0x2FFE#16 == 0x03#8 && t.memRead 0x2FFF#16 == 0x20#8) = true := by
  decide

/-- Rows B16 and B17. -/
theorem test_cp :
    stepsTo [0xF4#8, 0x45#8, 0x23#8]
      { start with flags := { noFlags with z := true, ac := true, p := true, cy := true } } (fun t =>
      decide (t.regs = zeroRegs) &&
        decide (t.flags = { noFlags with z := true, ac := true, p := true, cy := true }) && t.pc == 0x2345#16 &&
        t.sp == 0x2FFE#16 && t.memRead 0x2FFE#16 == 0x03#8 && t.memRead 0x2FFF#16 == 0x20#8) &&
    stepsTo [0xF4#8, 0x45#8, 0x23#8] { start with flags := { noFlags with s := true } } (fun t =>
      decide (t.regs = zeroRegs) && decide (t.flags = { noFlags with s := true }) && t.pc == 0x2003#16) = true := by
  decide

/-- Rows B18 and B19. -/
theorem test_cm :
    stepsTo [0xFC#8, 0x45#8, 0x23#8]
      { start with flags := { noFlags with z := true, ac := true, p := true, cy := true } } (fun t =>
      decide (t.regs = zeroRegs) &&
        decide (t.flags = { noFlags with z := true, ac := true, p := true, cy := true }) && t.pc == 0x2003#16) &&
    stepsTo [0xFC#8, 0x45#8, 0x23#8] { start with flags := { noFlags with s := true } } (fun t =>
      decide (t.regs = zeroRegs) && decide (t.flags = { noFlags with s := true }) && t.pc == 0x2345#16 &&
        t.sp == 0x2FFE#16 && t.memRead 0x2FFE#16 == 0x03#8 && t.memRead 0x2FFF#16 == 0x20#8) = true := by
  decide

/-- Row B52. -/
theorem test_jmp :
    stepsTo [0xC3#8, 0x45#8, 0x23#8] start (fun t =>
      decide (t.regs = zeroRegs) && decide (t.flags = noFlags) && t.pc == 0x2345#16) = true := by
  decide

/-- Row B55. -/
theorem test_pchl :
    stepsTo [0xE9#8] { start with regs := { zeroRegs with h := 0x12#8, l := 0x34#8 } } (fun t =>
      decide (t.regs = { zeroRegs with h := 0x12#8, l := 0x34#8 }) && decide (t.flags = noFlags) &&
        t.pc == 0x1234#16) = true := by
  decide

/-- Rows B20 and B21. -/
theorem test_jnz :
    stepsTo [0xC2#8, 0x45#8, 0x23#8]
      { start with flags := { noFlags with s := true, ac := true, p := true, cy := true } } (fun t =>
      decide (t.regs = zeroRegs) &&
        decide (t.flags = { noFlags with s := true, ac := true, p := true, cy := true }) && t.pc == 0x2345#16) &&
    stepsTo [0xC2#8, 0x45#8, 0x23#8] { start with flags := { noFlags with z := true } } (fun t =>
      decide (t.regs = zeroRegs) && decide (t.flags = { noFlags with z := true }) && t.pc == 0x2003#16) = true := by
  decide

/-- Rows B22 and B23. -/
theorem test_jz :
    stepsTo [0xCA#8, 0x45#8, 0x23#8]
      { start with flags := { noFlags with s := true, ac := true, p := true, cy := true } } (fun t =>
      decide (t.regs = zeroRegs) &&
        decide (t.flags = { noFlags with s := true, ac := true, p := true, cy := true }) && t.pc == 0x2003#16) &&
    stepsTo [0xCA#8, 0x45#8, 0x23#8] { start with flags := { noFlags with z := true } } (fun t =>
      decide (t.regs = zeroRegs) && decide (t.flags = { noFlags with z := true }) && t.pc == 0x2345#16) = true := by
  decide

/-- Rows B24 and B25. -/
theorem test_jnc :
    stepsTo [0xD2#8, 0x45#8, 0x23#8]
      { start with flags := { noFlags with s := true, z := true, ac := true, p := true } } (fun t =>
      decide (t.regs = zeroRegs) &&
        decide (t.flags = { noFlags with s := true, z := true, ac := true, p := true }) && t.pc == 0x2345#16) &&
    stepsTo [0xD2#8, 0x45#8, 0x23#8] { start with flags := { noFlags with cy := true } } (fun t =>
      decide (t.regs = zeroRegs) && decide (t.flags = { noFlags with cy := true }) && t.pc == 0x2003#16) = true := by
  decide

/-- Rows B26 and B27. -/
theorem test_jc :
    stepsTo [0xDA#8, 0x45#8, 0x23#8]
      { start with flags := { noFlags with s := true, z := true, ac := true, p := true } } (fun t =>
      decide (t.regs = zeroRegs) &&
        decide (t.flags = { noFlags with s := true, z := true, ac := true, p := true }) && t.pc == 0x2003#16) &&
    stepsTo [0xDA#8, 0x45#8, 0x23#8] { start with flags := { noFlags with cy := true } } (fun t =>
      decide (t.regs = zeroRegs) && decide (t.flags = { noFlags with cy := true }) && t.pc == 0x2345#16) = true := by
  decide

/-- Rows B28 and B29. -/
theorem test_jpo :
    stepsTo [0xE2#8, 0x45#8, 0x23#8]
      { start with flags := { noFlags with s := true, z := true, ac := true, cy := true } } (fun t =>
      decide (t.regs = zeroRegs) &&
        decide (t.flags = { noFlags with s := true, z := true, ac := true, cy := true }) && t.pc == 0x2345#16) &&
    stepsTo [0xE2#8, 0x45#8, 0x23#8] { start with flags := { noFlags with p := true } } (fun t =>
      decide (t.regs = zeroRegs) && decide (t.flags = { noFlags with p := true }) && t.pc == 0x2003#16) = true := by
  decide

/-- Rows B30 and B31. -/
theorem test_jpe :
    stepsTo [0xEA#8, 0x45#8, 0x23#8]
      { start with flags := { noFlags with s := true, z := true, ac := true, cy := true } } (fun t =>
      decide (t.regs = zeroRegs) &&
        decide (t.flags = { noFlags with s := true, z := true, ac := true, cy := true }) && t.pc == 0x2003#16) &&
    stepsTo [0xEA#8, 0x45#8, 0x23#8] { start with flags := { noFlags with p := true } } (fun t =>
      decide (t.regs = zeroRegs) && decide (t.flags = { noFlags with p := true }) && t.pc == 0x2345#16) = true := by
  decide

/-- Rows B32 and B33. -/
theorem test_jp :
    stepsTo [0xF2#8, 0x45#8, 0x23#8]
      { start with flags := { noFlags with z := true, ac := true, p := true, cy := true } } (fun t =>
      decide (t.regs = zeroRegs) &&
        decide (t.flags = { noFlags with z := true, ac := true, p := true, cy := true }) && t.pc == 0x2345#16) &&
    stepsTo [0xF2#8, 0x45#8, 0x23#8] { start with flags := { noFlags with s := true } } (fun t =>
      decide (t.regs = zeroRegs) && decide (t.flags = { noFlags with s := true }) && t.pc == 0x2003#16) = true := by
  decide

/-- Rows B34 and B35. -/
theorem test_jm :
    stepsTo [0xFA#8, 0x45#8, 0x23#8]
      { start with flags := { noFlags with z := true, ac := true, p := true, cy := true } } (fun t =>
      decide (t.regs = zeroRegs) &&
        decide (t.flags = { noFlags with z := true, ac := true, p := true, cy := true }) && t.pc == 0x2003#16) &&
    stepsTo [0xFA#8, 0x45#8, 0x23#8] { start with flags := { noFlags with s := true } } (fun t =>
      decide (t.regs = zeroRegs) && decide (t.flags = { noFlags with s := true }) && t.pc == 0x2345#16) = true := by
  decide

/-- Row B57. -/
theorem test_ret_wraps :
    stepsTo [0xC9#8]
      { start with sp := 0xFFFF#16, pc := 0x3050#16, mem := [(0x0000, 0x12#8), (0xFFFF, 0x34#8)] } (fun t =>
      decide (t.regs = zeroRegs) && decide (t.flags = noFlags) && t.pc == 0x1234#16 && t.sp == 0x0001#16) = true := by
  decide

/-- Rows B36 and B37. -/
theorem test_rnz :
    stepsTo [0xC0#8]
      { start with
        flags := { noFlags with s := true, ac := true, p := true, cy := true }
        sp := 0x2FFE#16
        pc := 0x3050#16
        mem := [(0x2FFE, 0x78#8), (0x2FFF, 0x56#8)] } (fun t =>
      decide (t.regs = zeroRegs) &&
        decide (t.flags = { noFlags with s := true, ac := true, p := true, cy := true }) && t.pc == 0x5678#16 &&
        t.sp == 0x3000#16) &&
    stepsTo [0xC0#8]
      { start with
        flags := { noFlags with z := true }
        sp := 0x2FFE#16
        pc := 0x3050#16
        mem := [(0x2FFE, 0x78#8), (0x2FFF, 0x56#8)] } (fun t =>
      decide (t.regs = zeroRegs) && decide (t.flags = { noFlags with z := true }) && t.pc == 0x3051#16) = true := by
  decide

/-- Rows B38 and B39. -/
theorem test_rz :
    stepsTo [0xC8#8]
      { start with
        flags := { noFlags with s := true, ac := true, p := true, cy := true }
        sp := 0x2FFE#16
        pc := 0x3050#16
        mem := [(0x2FFE, 0x78#8), (0x2FFF, 0x56#8)] } (fun t =>
      decide (t.regs = zeroRegs) &&
        decide (t.flags = { noFlags with s := true, ac := true, p := true, cy := true }) && t.pc == 0x3051#16) &&
    stepsTo [0xC8#8]
      { start with
        flags := { noFlags with z := true }
        sp := 0x2FFE#16
        pc := 0x3050#16
        mem := [(0x2FFE, 0x78#8), (0x2FFF, 0x56#8)] } (fun t =>
      decide (t.regs = zeroRegs) && decide (t.flags = { noFlags with z := true }) && t.pc == 0x5678#16 &&
        t.sp == 0x3000#16) = true := by
  decide

/-- Rows B40 and B41. -/
theorem test_rnc :
    stepsTo [0xD0#8]
      { start with
        flags := { noFlags with s := true, z := true, ac := true, p := true }
        sp := 0x2FFE#16
        pc := 0x3050#16
        mem := [(0x2FFE, 0x78#8), (0x2FFF, 0x56#8)] } (fun t =>
      decide (t.regs = zeroRegs) &&
        decide (t.flags = { noFlags with s := true, z := true, ac := true, p := true }) && t.pc == 0x5678#16 &&
        t.sp == 0x3000#16) &&
    stepsTo [0xD0#8]
      { start with
        flags := { noFlags with cy := true }
        sp := 0x2FFE#16
        pc := 0x3050#16
        mem := [(0x2FFE, 0x78#8), (0x2FFF, 0x56#8)] } (fun t =>
      decide (t.regs = zeroRegs) && decide (t.flags = { noFlags with cy := true }) && t.pc == 0x3051#16) = true := by
  decide

/-- Rows B42 and B43. -/
theorem test_rc :
    stepsTo [0xD8#8]
      { start with
        flags := { noFlags with s := true, z := true, ac := true, p := true }
        sp := 0x2FFE#16
        pc := 0x3050#16
        mem := [(0x2FFE, 0x78#8), (0x2FFF, 0x56#8)] } (fun t =>
      decide (t.regs = zeroRegs) &&
        decide (t.flags = { noFlags with s := true, z := true, ac := true, p := true }) && t.pc == 0x3051#16) &&
    stepsTo [0xD8#8]
      { start with
        flags := { noFlags with cy := true }
        sp := 0x2FFE#16
        pc := 0x3050#16
        mem := [(0x2FFE, 0x78#8), (0x2FFF, 0x56#8)] } (fun t =>
      decide (t.regs = zeroRegs) && decide (t.flags = { noFlags with cy := true }) && t.pc == 0x5678#16 &&
        t.sp == 0x3000#16) = true := by
  decide

/-- Rows B44 and B45. -/
theorem test_rpo :
    stepsTo [0xE0#8]
      { start with
        flags := { noFlags with s := true, z := true, ac := true, cy := true }
        sp := 0x2FFE#16
        pc := 0x3050#16
        mem := [(0x2FFE, 0x78#8), (0x2FFF, 0x56#8)] } (fun t =>
      decide (t.regs = zeroRegs) &&
        decide (t.flags = { noFlags with s := true, z := true, ac := true, cy := true }) && t.pc == 0x5678#16 &&
        t.sp == 0x3000#16) &&
    stepsTo [0xE0#8]
      { start with
        flags := { noFlags with p := true }
        sp := 0x2FFE#16
        pc := 0x3050#16
        mem := [(0x2FFE, 0x78#8), (0x2FFF, 0x56#8)] } (fun t =>
      decide (t.regs = zeroRegs) && decide (t.flags = { noFlags with p := true }) && t.pc == 0x3051#16) = true := by
  decide

/-- Rows B46 and B47. -/
theorem test_rpe :
    stepsTo [0xE8#8]
      { start with
        flags := { noFlags with s := true, z := true, ac := true, cy := true }
        sp := 0x2FFE#16
        pc := 0x3050#16
        mem := [(0x2FFE, 0x78#8), (0x2FFF, 0x56#8)] } (fun t =>
      decide (t.regs = zeroRegs) &&
        decide (t.flags = { noFlags with s := true, z := true, ac := true, cy := true }) && t.pc == 0x3051#16) &&
    stepsTo [0xE8#8]
      { start with
        flags := { noFlags with p := true }
        sp := 0x2FFE#16
        pc := 0x3050#16
        mem := [(0x2FFE, 0x78#8), (0x2FFF, 0x56#8)] } (fun t =>
      decide (t.regs = zeroRegs) && decide (t.flags = { noFlags with p := true }) && t.pc == 0x5678#16 &&
        t.sp == 0x3000#16) = true := by
  decide

/-- Rows B48 and B49. -/
theorem test_rp :
    stepsTo [0xF0#8]
      { start with
        flags := { noFlags with z := true, ac := true, p := true, cy := true }
        sp := 0x2FFE#16
        pc := 0x3050#16
        mem := [(0x2FFE, 0x78#8), (0x2FFF, 0x56#8)] } (fun t =>
      decide (t.regs = zeroRegs) &&
        decide (t.flags = { noFlags with z := true, ac := true, p := true, cy := true }) && t.pc == 0x5678#16 &&
        t.sp == 0x3000#16) &&
    stepsTo [0xF0#8]
      { start with
        flags := { noFlags with s := true }
        sp := 0x2FFE#16
        pc := 0x3050#16
        mem := [(0x2FFE, 0x78#8), (0x2FFF, 0x56#8)] } (fun t =>
      decide (t.regs = zeroRegs) && decide (t.flags = { noFlags with s := true }) && t.pc == 0x3051#16) = true := by
  decide

/-- Rows B50 and B51. -/
theorem test_rm :
    stepsTo [0xF8#8]
      { start with
        flags := { noFlags with z := true, ac := true, p := true, cy := true }
        sp := 0x2FFE#16
        pc := 0x3050#16
        mem := [(0x2FFE, 0x78#8), (0x2FFF, 0x56#8)] } (fun t =>
      decide (t.regs = zeroRegs) &&
        decide (t.flags = { noFlags with z := true, ac := true, p := true, cy := true }) && t.pc == 0x3051#16) &&
    stepsTo [0xF8#8]
      { start with
        flags := { noFlags with s := true }
        sp := 0x2FFE#16
        pc := 0x3050#16
        mem := [(0x2FFE, 0x78#8), (0x2FFF, 0x56#8)] } (fun t =>
      decide (t.regs = zeroRegs) && decide (t.flags = { noFlags with s := true }) && t.pc == 0x5678#16 &&
        t.sp == 0x3000#16) = true := by
  decide

/-- Row B60. -/
theorem test_rst :
    stepsTo [0xD7#8] { start with sp := 0x2400#16, pc := 0x1234#16 } (fun t =>
      decide (t.regs = zeroRegs) && decide (t.flags = noFlags) && t.pc == 0x0010#16 && t.sp == 0x23FE#16 &&
        t.memRead 0x23FE#16 == 0x35#8 && t.memRead 0x23FF#16 == 0x12#8) = true := by
  decide

/-- Row B66. -/
theorem test_rst_over_itself :
    stepsTo [0xC7#8] { start with sp := 0x0000#16, pc := 0xFFFF#16, mem := [(0xFFFE, 0xFF#8)] } (fun t =>
      decide (t.regs = zeroRegs) && decide (t.flags = noFlags) && t.pc == 0x0000#16 && t.sp == 0xFFFE#16 &&
        t.memRead 0xFFFE#16 == 0x00#8 && t.memRead 0xFFFF#16 == 0x00#8) = true := by
  decide

/-! Machine control and I/O (rows M) -/

/-- Row M2. -/
theorem test_nop :
    stepsTo [0x00#8] { start with pc := 0xFFFF#16 } (fun t =>
      decide (t.regs = zeroRegs) && decide (t.flags = noFlags) && t.pc == 0x0000#16) = true := by
  decide

/-- Row M3. -/
theorem test_hlt :
    stepsTo [0x76#8] start (fun t =>
      decide (t.regs = zeroRegs) && decide (t.flags = noFlags) && t.pc == 0x2001#16 &&
        decide (t.ctl = { State.reset.ctl with halted := true })) = true := by
  decide

/-- Row M4. -/
theorem test_di :
    stepsTo [0xF3#8] { start with ctl := { State.reset.ctl with ie := true } } (fun t =>
      decide (t.regs = zeroRegs) && decide (t.flags = noFlags) && t.pc == 0x2001#16 &&
        decide (t.ctl = State.reset.ctl)) = true := by
  decide

/-- Row M6. -/
theorem test_ei :
    stepsTo [0xFB#8] start (fun t =>
      decide (t.regs = zeroRegs) && decide (t.flags = noFlags) && t.pc == 0x2001#16 &&
        decide (t.ctl = { State.reset.ctl with ie := true, eiDelay := true })) = true := by
  decide

/-- Row M8. -/
theorem test_in_ :
    stepsTo [0xDB#8, 0x84#8] { start with inputs := [{ StepInput.quiet with ioRead := some 0x7E#8 }] } (fun t =>
      decide (t.regs = { zeroRegs with a := 0x7E#8 }) && decide (t.flags = noFlags) && t.pc == 0x2002#16 &&
        decide (t.trace = [.read 0x84#8 0x7E#8])) = true := by
  decide

/-- Row M10. -/
theorem test_out :
    stepsTo [0xD3#8, 0x01#8] { start with regs := { zeroRegs with a := 0x3C#8 } } (fun t =>
      decide (t.regs = { zeroRegs with a := 0x3C#8 }) && decide (t.flags = noFlags) && t.pc == 0x2002#16 &&
        decide (t.trace = [.write 0x01#8 0x3C#8])) = true := by
  decide

/-- Row M14. -/
theorem test_rim_after_trap :
    stepsTo [0x20#8]
      { start with
        ctl := { State.reset.ctl with m65 := false, m55 := false, trapIeValid := true, trapIeValue := true }
        inputs := [{ StepInput.quiet with sid := some false }] } (fun t =>
      decide (t.regs = { zeroRegs with a := 0x0C#8 }) && decide (t.flags = noFlags) && t.pc == 0x2001#16 &&
        decide (t.ctl = { State.reset.ctl with m65 := false, m55 := false, trapIeValue := true })) = true := by
  decide

/-- Row M16. -/
theorem test_sim_masks :
    stepsTo [0x30#8] { start with regs := { zeroRegs with a := 0x0D#8 } } (fun t =>
      decide (t.regs = { zeroRegs with a := 0x0D#8 }) && decide (t.flags = noFlags) && t.pc == 0x2001#16 &&
        decide (t.ctl = { State.reset.ctl with m65 := false })) = true := by
  decide

/-- Row M23. -/
theorem test_sim_all :
    stepsTo [0x30#8]
      { start with
        regs := { zeroRegs with a := 0xFF#8 }
        ctl := { State.reset.ctl with m75 := false, m65 := false, m55 := false, r75 := true } } (fun t =>
      decide (t.regs = { zeroRegs with a := 0xFF#8 }) && decide (t.flags = noFlags) && t.pc == 0x2001#16 &&
        decide (t.ctl = { State.reset.ctl with sod := true })) = true := by
  decide

/-! Data transfer (rows T) -/

/-- Row T1. -/
theorem test_lda :
    stepsTo [0x3A#8, 0x50#8, 0x20#8] { start with mem := [(0x2050, 0x9C#8)] } (fun t =>
      decide (t.regs = { zeroRegs with a := 0x9C#8 }) && decide (t.flags = noFlags) && t.pc == 0x2003#16) = true := by
  decide

/-- Row T3. -/
theorem test_ldax :
    stepsTo [0x0A#8]
      { start with regs := { zeroRegs with b := 0x20#8, c := 0x50#8 }, mem := [(0x2050, 0x9F#8)] } (fun t =>
      decide (t.regs = { zeroRegs with a := 0x9F#8, b := 0x20#8, c := 0x50#8 }) && decide (t.flags = noFlags) &&
        t.pc == 0x2001#16) = true := by
  decide

/-- Row T6. -/
theorem test_lhld_wraps :
    stepsTo [0x2A#8, 0xFF#8, 0xFF#8] { start with mem := [(0x0000, 0xAB#8), (0xFFFF, 0xCD#8)] } (fun t =>
      decide (t.regs = { zeroRegs with h := 0xAB#8, l := 0xCD#8 }) && decide (t.flags = noFlags) &&
        t.pc == 0x2003#16) = true := by
  decide

/-- Row T7. -/
theorem test_lxi :
    stepsTo [0x01#8, 0x34#8, 0x12#8] start (fun t =>
      decide (t.regs = { zeroRegs with b := 0x12#8, c := 0x34#8 }) && decide (t.flags = noFlags) &&
        t.pc == 0x2003#16) = true := by
  decide

/-- Row T14. -/
theorem test_mov_rr :
    stepsTo [0x6C#8] { start with regs := { zeroRegs with h := 0x20#8, l := 0x50#8 } } (fun t =>
      decide (t.regs = { zeroRegs with h := 0x20#8, l := 0x20#8 }) && decide (t.flags = noFlags) &&
        t.pc == 0x2001#16) = true := by
  decide

/-- Row T20. -/
theorem test_mov_mr :
    stepsTo [0x75#8] { start with regs := { zeroRegs with h := 0x20#8, l := 0x50#8 } } (fun t =>
      decide (t.regs = { zeroRegs with h := 0x20#8, l := 0x50#8 }) && decide (t.flags = noFlags) &&
        t.pc == 0x2001#16 && t.memRead 0x2050#16 == 0x50#8) = true := by
  decide

/-- Row T22. -/
theorem test_mov_rm :
    stepsTo [0x66#8]
      { start with regs := { zeroRegs with h := 0x20#8, l := 0x50#8 }, mem := [(0x2050, 0x8F#8)] } (fun t =>
      decide (t.regs = { zeroRegs with h := 0x8F#8, l := 0x50#8 }) && decide (t.flags = noFlags) &&
        t.pc == 0x2001#16) = true := by
  decide

/-- Row T25. -/
theorem test_mvi_r :
    stepsTo [0x16#8, 0x16#8] start (fun t =>
      decide (t.regs = { zeroRegs with d := 0x16#8 }) && decide (t.flags = noFlags) && t.pc == 0x2002#16) = true := by
  decide

/-- Row T26. -/
theorem test_mvi_m :
    stepsTo [0x36#8, 0x3C#8] { start with regs := { zeroRegs with h := 0x20#8, l := 0x50#8 } } (fun t =>
      decide (t.regs = { zeroRegs with h := 0x20#8, l := 0x50#8 }) && decide (t.flags = noFlags) &&
        t.pc == 0x2002#16 && t.memRead 0x2050#16 == 0x3C#8) = true := by
  decide

/-- Row T28. -/
theorem test_shld_wraps :
    stepsTo [0x22#8, 0xFF#8, 0xFF#8] { start with regs := { zeroRegs with h := 0x12#8, l := 0x34#8 } } (fun t =>
      decide (t.regs = { zeroRegs with h := 0x12#8, l := 0x34#8 }) && decide (t.flags = noFlags) &&
        t.pc == 0x2003#16 && t.memRead 0x0000#16 == 0x12#8 && t.memRead 0xFFFF#16 == 0x34#8) = true := by
  decide

/-- Row T29. -/
theorem test_sphl :
    stepsTo [0xF9#8] { start with regs := { zeroRegs with h := 0x40#8 } } (fun t =>
      decide (t.regs = { zeroRegs with h := 0x40#8 }) && decide (t.flags = noFlags) && t.pc == 0x2001#16 &&
        t.sp == 0x4000#16) = true := by
  decide

/-- Row T31. -/
theorem test_sta_over_itself :
    stepsTo [0x32#8, 0x01#8, 0x20#8] { start with regs := { zeroRegs with a := 0x9C#8 } } (fun t =>
      decide (t.regs = { zeroRegs with a := 0x9C#8 }) && decide (t.flags = noFlags) && t.pc == 0x2003#16 &&
        t.memRead 0x2001#16 == 0x9C#8) = true := by
  decide

/-- Row T33. -/
theorem test_stax :
    stepsTo [0x12#8] { start with regs := { zeroRegs with a := 0x3F#8, d := 0x20#8, e := 0x51#8 } } (fun t =>
      decide (t.regs = { zeroRegs with a := 0x3F#8, d := 0x20#8, e := 0x51#8 }) && decide (t.flags = noFlags) &&
        t.pc == 0x2001#16 && t.memRead 0x2051#16 == 0x3F#8) = true := by
  decide

/-- Row T34. -/
theorem test_xchg :
    stepsTo [0xEB#8]
      { start with regs := { zeroRegs with d := 0xAB#8, e := 0xCD#8, h := 0x12#8, l := 0x34#8 } } (fun t =>
      decide (t.regs = { zeroRegs with d := 0x12#8, e := 0x34#8, h := 0xAB#8, l := 0xCD#8 }) &&
        decide (t.flags = noFlags) && t.pc == 0x2001#16) = true := by
  decide

/-! Stack (rows S) -/

/-- Row S1. -/
theorem test_pop :
    stepsTo [0xC1#8] { start with sp := 0x2FFE#16, mem := [(0x2FFE, 0x34#8), (0x2FFF, 0x12#8)] } (fun t =>
      decide (t.regs = { zeroRegs with b := 0x12#8, c := 0x34#8 }) && decide (t.flags = noFlags) &&
        t.pc == 0x2001#16 && t.sp == 0x3000#16) = true := by
  decide

/-- Row S7. -/
theorem test_pop_psw :
    stepsTo [0xF1#8]
      { start with flags := allFlags, sp := 0x2FFE#16, mem := [(0x2FFE, 0x2A#8), (0x2FFF, 0x77#8)] } (fun t =>
      decide (t.regs = { zeroRegs with a := 0x77#8 }) && decide (t.flags = noFlags) && t.pc == 0x2001#16 &&
        t.sp == 0x3000#16) = true := by
  decide

/-- Row S12. -/
theorem test_push_wraps :
    stepsTo [0xE5#8] { start with regs := { zeroRegs with h := 0x20#8, l := 0x50#8 }, sp := 0x0001#16 } (fun t =>
      decide (t.regs = { zeroRegs with h := 0x20#8, l := 0x50#8 }) && decide (t.flags = noFlags) &&
        t.pc == 0x2001#16 && t.sp == 0xFFFF#16 && t.memRead 0x0000#16 == 0x20#8 && t.memRead 0xFFFF#16 == 0x50#8) = true := by
  decide

/-- Row S18. -/
theorem test_xthl :
    stepsTo [0xE3#8]
      { start with
        regs := { zeroRegs with h := 0x12#8, l := 0x34#8 }
        sp := 0xFFFF#16
        mem := [(0x0000, 0xAB#8), (0xFFFF, 0xCD#8)] } (fun t =>
      decide (t.regs = { zeroRegs with h := 0xAB#8, l := 0xCD#8 }) && decide (t.flags = noFlags) &&
        t.pc == 0x2001#16 && t.memRead 0x0000#16 == 0x12#8 && t.memRead 0xFFFF#16 == 0x34#8) = true := by
  decide

/-- The start of rows S13 and S14. -/
def pushStart : State := { start with regs := { zeroRegs with a := 0x9A#8 }, flags := allFlags }

/-- Rows S13, S14: PUSH PSW with all flags 1; the byte at SP - 2 is fixed up to its three drawn bits. -/
theorem test_push_psw :
    ∃ t, exec .pushPsw pushStart = .next t ∧
      t.sp = 0x2FFE#16 ∧ t.memRead 0x2FFF#16 = 0x9A#8 ∧ t.memRead 0x2FFE#16 &&& 0xD5#8 = 0xD5#8 := by
  have key (u : BitVec 3) (s : State) (h1 : kindAt s.memMap (s.sp - 1) = .readWrite)
      (h2 : kindAt s.memMap (s.sp - 2) = .readWrite) :
      (s.push16 (wordOf 0x9A#8 (allFlags.toByte u))).memRead (s.sp - 1) = 0x9A#8 ∧
        (s.push16 (wordOf 0x9A#8 (allFlags.toByte u))).memRead (s.sp - 2) &&& 0xD5#8 = 0xD5#8 := by
    rw [State.push16_memRead_high s _ h1, State.push16_memRead_low s _ h2, hiByte_wordOf, loByte_wordOf,
      Flags.toByte_masked]
    decide
  exact ⟨_, rfl, rfl, key (Config.unusedFlagBits pushStart.tick) pushStart rfl rfl⟩

/-- Row M12: RIM as the next instruction with no interrupt taken. -/
theorem test_rim :
    nextIs (exec .rim { start with
        ctl := { State.reset.ctl with ie := true, m75 := false, r75 := true }
        now := { StepInput.quiet with sid := some true, lines := { StepInput.quiet.lines with r55 := true } } })
      (fun t => t.regs.a == 0xDB#8 && t.pc == 0x2001#16) = true := by decide

/-! ## The boundary (95_test_vectors.md section 2.7, the rows X) -/

/-- The start of the rows X: pc = 1234H, SP = 2400H, a NOP at pc, one record of inputs. -/
def atBoundary (c : Control) (x : StepInput) : State :=
  { State.reset with pc := 0x1234#16, sp := 0x2400#16, ctl := c, inputs := [x] }

/-- Interrupts enabled, nothing masked. -/
def unmasked : Control := { State.reset.ctl with ie := true, m75 := false, m65 := false, m55 := false }

/-- A record with these interrupt lines. -/
def lines (trap edge r65 r55 intr : Bool) : StepInput :=
  { StepInput.quiet with lines := { trap := trap, r75Edge := edge, r65 := r65, r55 := r55, intr := intr } }

/-- Row X3: RST 5.5 is the one not masked. -/
theorem test_rst55_entry :
    nextIs (step (atBoundary { unmasked with m75 := true, m65 := true, r75 := true } (lines false false true true true)))
      (fun t => t.pc == 0x002C#16 && t.sp == 0x23FE#16 && t.memRead 0x23FF#16 == 0x12#8 &&
        t.memRead 0x23FE#16 == 0x34#8 && !t.ctl.ie && t.ctl.r75) = true := by decide

/-- Row X5: INTR answered with CALL 4000H. -/
theorem test_intr_call_entry :
    nextIs (step (atBoundary { State.reset.ctl with ie := true }
        { lines false false false false true with intrBytes := [0xCD#8, 0x00#8, 0x40#8] }))
      (fun t => t.pc == 0x4000#16 && t.sp == 0x23FE#16 && !t.ctl.ie) = true := by decide

/-- Rows X6 and X9: IE = 0, and IE = 1 under the EI delay: the NOP executes. -/
theorem test_not_recognised :
    (nextIs (step (atBoundary { unmasked with ie := false, r75 := true } (lines false false true true true)))
      (fun t => t.pc == 0x1235#16 && t.ctl.r75) &&
    nextIs (step (atBoundary { unmasked with eiDelay := true } (lines false false true false false)))
      (fun t => t.pc == 0x1235#16 && t.ctl.ie && !t.ctl.eiDelay)) = true := by decide

/-- Rows X8 and X10: TRAP has the highest priority, saves IE, and is not delayed by EI. -/
theorem test_trap_entry :
    (nextIs (step (atBoundary { unmasked with r75 := true } (lines true false true false false)))
      (fun t => t.pc == 0x0024#16 && t.ctl.trapIeValid && t.ctl.trapIeValue && t.ctl.r75) &&
    nextIs (step (atBoundary { unmasked with eiDelay := true } (lines true false false false false)))
      (fun t => t.pc == 0x0024#16 && !t.ctl.ie && !t.ctl.eiDelay)) = true := by decide

/-- Row X11: a masked edge is latched. Rows X12 and X13: the halt state is left by an interrupt and by nothing else. -/
theorem test_edge_and_halt :
    (nextIs (step (atBoundary State.reset.ctl (lines false true false false false)))
      (fun t => t.ctl.r75 && t.pc == 0x1235#16) &&
    nextIs (step (atBoundary { unmasked with halted := true } (lines false false false true false)))
      (fun t => t.pc == 0x002C#16 && !t.ctl.halted) &&
    nextIs (step (atBoundary { unmasked with halted := true, ie := false } (lines false false true true false)))
      (fun t => t.pc == 0x1234#16 && t.ctl.halted)) = true := by decide

/-- Row X15: reset comes before TRAP. -/
theorem test_reset_wins :
    nextIs (step (atBoundary unmasked { lines true false true false false with resetIn := true }))
      (fun t => t.pc == 0x0000#16 && !t.ctl.ie && t.ctl.m75 && t.ctl.m65 && t.ctl.m55 && !t.ctl.trapIeValid) = true := by
  decide

/-- Rules R107 and R341: the two refusals. -/
theorem test_refusals :
    step (start.load 0x2000#16 [0xCB#8]) = .refused (.unassignedOpcode 0xCB#8) ∧
    step (atBoundary unmasked { lines false false false false true with intrBytes := [0x00#8] }) =
      .refused .intrInstructionNotModelled := ⟨rfl, rfl⟩

/-- 20_memory.md rule R63: a store to read-only memory changes nothing. -/
theorem test_read_only :
    nextIs (exec (.mviM 0x3C#8)
        { start with mem := [(0, 0x11#8)], memMap := [{ first := 0x0000#16, last := 0x0FFF#16, kind := .readOnly }] })
      (fun t => t.memRead 0x0000#16 == 0x11#8) = true := by decide

/-- From reset, the step runs the instruction placed where it fetches. -/
theorem test_withFetchWord :
    (nextIs (step (State.reset.withFetchWord 24 0x12343A)) (fun t => t.pc == 0x0003#16) &&
    nextIs (step (State.reset.withFetchWord 16 0xFF3E)) (fun t => t.regs.a == 0xFF#8) &&
    nextIs (step (State.reset.withFetchWord 8 0x76)) (fun t => t.ctl.halted)) = true := by decide

/-! ## Witnesses: states and operands that meet the hypotheses of a statement -/

theorem witness_EncodedInstructionDecodesToItself : (Instr.lxi .sp 0xFFFF#16).wellFormed = true := by decide

theorem witness_DecodedBytesAreTheEncoding :
    decode [0xC3#8, 0x45#8, 0x23#8, 0xFF#8] = .ok (.jmp 0x2345#16, [0xFF#8]) := by decide

theorem witness_OpcodeByteFixesTheLength :
    decode [0x06#8, 0x01#8] = .ok (.mviR .b 0x01#8, []) ∧ decode [0xFC#8, 0x00#8, 0x10#8] = .ok (.cm 0x1000#16, []) ∧
      decode [0xFF#8] = .ok (.rst 7, []) := by decide

/-- MVI A,FFH at 2000H, IE = 1, RST 5.5 requested but masked. -/
theorem witness_StepRunsTheDecodedInstruction :
    let s : State :=
      { start with
        ctl := { State.reset.ctl with ie := true }
        mem := [(0x2000, 0x3E#8), (0x2001, 0xFF#8)]
        inputs := [lines false false false true false] }
    let input := s.inputs.headD StepInput.quiet
    let g := s.ctl.ie && !s.ctl.eiDelay
    let s' : State :=
      { s with
        now := input
        inputs := s.inputs.tail
        tick := s.tick + 1
        ctl := { s.ctl with r75 := s.ctl.r75 || input.lines.r75Edge, eiDelay := false } }
    input.resetIn = false ∧ input.lines.trap = false ∧
      (g && (s.ctl.r75 || input.lines.r75Edge) && !s.ctl.m75) = false ∧
      (g && input.lines.r65 && !s.ctl.m65) = false ∧ (g && input.lines.r55 && !s.ctl.m55) = false ∧
      (g && input.lines.intr) = false ∧ s.ctl.halted = false ∧
      decode [s'.fetchRead s.pc, s'.fetchRead (s.pc + 1), s'.fetchRead (s.pc + 2)] = .ok (.mviR .a 0xFF#8, [0x00#8]) ∧
      (Instr.mviR .a 0xFF#8).wellFormed = true :=
  ⟨rfl, rfl, rfl, rfl, rfl, rfl, rfl, rfl, rfl⟩

theorem witness_StepRefusesOnlyWhatTheSpecRefuses :
    let s : State := { start with mem := [(0x2000, 0x08#8)] }
    (s.inputs.headD StepInput.quiet).resetIn = false ∧ s.takeInput.latchEdge.selected = none ∧ s.ctl.halted = false ∧
      s.pastBoundary.fetchRead s.pc ∈ unassignedOpcodes ∧ step s = .refused (.unassignedOpcode 0x08#8) :=
  ⟨rfl, rfl, rfl, by decide, rfl⟩

/-- INTR answered with a CALL cut short: selected, refused. -/
theorem witness_StepRefuses_intr :
    let s := atBoundary unmasked { lines false false false false true with intrBytes := [0xCD#8, 0x00#8] }
    (s.inputs.headD StepInput.quiet).resetIn = false ∧ s.takeInput.latchEdge.selected = some .intr ∧
      step s = .refused .intrInstructionNotModelled := ⟨rfl, rfl, rfl⟩

theorem witness_PlacedInstructionRunsNext : decodeTableWord 24 0x2345C3 = some (.jmp 0x2345#16) := by decide

theorem witness_OnlyTransfersLeaveTheSequence :
    (∃ t, exec .nop start = .next t) ∧ ∃ t, exec (.jnz 0x1000#16) start = .next t := ⟨⟨_, rfl⟩, ⟨_, rfl⟩⟩

theorem witness_EveryStepKeepsTheInvariant :
    let s : State :=
      { start with ctl := { unmasked with eiDelay := true }, mem := [(0x2000, 0x34#8), (0xFFFF, 0x01#8)] }
    s.Inv = true ∧ ∃ t, step s = .next t := ⟨by decide, _, rfl⟩

/-- A form that stores two bytes, one that stores none, and an address outside the stored ones. -/
theorem witness_OnlyStoredBytesOfMemoryChange :
    (∃ t, exec (.shld 0xFFFF#16) start = .next t) ∧ 0x0001#16 ∉ storeAddresses (.shld 0xFFFF#16) start ∧
      (∃ t, exec .cmpM start = .next t) ∧ start.hl ∉ storeAddresses .cmpM start :=
  ⟨⟨_, rfl⟩, by decide, ⟨_, rfl⟩, by decide⟩

/-- One instruction for each clause. -/
theorem witness_FlagsChangeOnlyAsTheFlagTableSays :
    ([.addR .a, .anaR .b, .ori 0x01#8, .inrM, .dad .hl, .cmc, .stc, .mviM 0x01#8] : List Instr).all
      (fun i => nextIs (exec i start) (fun _ => true)) = true := by decide

/-- One step for each clause: EI, SIM, an RST 7.5 edge, TRAP, RIM with a saved IE, HLT. -/
theorem witness_ControlStateChangesOnlyByNamedEvents :
    (stepsTo [0xFB#8] start (fun t => t.ctl.ie != start.ctl.ie && t.ctl.eiDelay) &&
    stepsTo [0x30#8] { start with regs := { zeroRegs with a := 0xC8#8 } }
      (fun t => t.ctl.m75 != start.ctl.m75 && t.ctl.sod != start.ctl.sod) &&
    stepsTo [0x00#8] { start with inputs := [lines false true false false false] }
      (fun t => t.ctl.r75 != start.ctl.r75) &&
    stepsTo [0x00#8] { start with ctl := unmasked, inputs := [lines true false false false false] }
      (fun t => t.ctl.trapIeValid != unmasked.trapIeValid && t.ctl.trapIeValue != unmasked.trapIeValue) &&
    stepsTo [0x20#8] { start with ctl := { unmasked with trapIeValid := true } } (fun t => !t.ctl.trapIeValid) &&
    stepsTo [0x76#8] start (fun t => t.ctl.halted != start.ctl.halted)) = true := by decide

/-- The value of `trap_ie` and SOD are not as State.reset has them. -/
theorem witness_ResetLeavesTheSpecifiedControlState :
    let c : Control := { State.reset.ctl with trapIeValue := true, sod := true }
    c.ie = false ∧ c.m75 = true ∧ c.m65 = true ∧ c.m55 = true ∧ c.r75 = false ∧ c.trapIeValid = false :=
  ⟨rfl, rfl, rfl, rfl, rfl, rfl⟩

theorem witness_ResetStepComesBeforeEverything :
    let s := atBoundary unmasked { lines true true true true true with resetIn := true }
    (s.inputs.headD StepInput.quiet).resetIn = true := rfl

theorem witness_StepEntersTheSelectedInterrupt :
    let s := atBoundary { unmasked with halted := true } (lines false true false false false)
    (s.inputs.headD StepInput.quiet).resetIn = false ∧ s.takeInput.latchEdge.selected = some .rst75 := ⟨rfl, rfl⟩

/-- The four fixed addresses are met by `rfl`; INTR with RST 0 and with RST 7, and with CALL FFFFH. -/
theorem witness_InterruptEntrySavesThePcAndNothingElse :
    let answered (bytes : List Byte) : State := { start with now := { StepInput.quiet with intrBytes := bytes } }
    (Source.trap = .trap ∧ 0x0024#16 = 0x0024#16) ∧ (Source.rst75 = .rst75 ∧ 0x003C#16 = 0x003C#16) ∧
    (Source.rst65 = .rst65 ∧ 0x0034#16 = 0x0034#16) ∧ (Source.rst55 = .rst55 ∧ 0x002C#16 = 0x002C#16) ∧
    (∃ n : Nat, n < 8 ∧ (answered [0xC7#8]).now.intrBytes = [BitVec.ofNat 8 (0xC7 + 8 * n)] ∧
      0x0000#16 = BitVec.ofNat 16 (8 * n)) ∧
    (∃ n : Nat, n < 8 ∧ (answered [0xFF#8]).now.intrBytes = [BitVec.ofNat 8 (0xC7 + 8 * n)] ∧
      0x0038#16 = BitVec.ofNat 16 (8 * n)) ∧
    ∃ lo hi : Byte, (answered [0xCD#8, 0xFF#8, 0xFF#8]).now.intrBytes = [0xCD#8, lo, hi] ∧
      (0xFFFF#16).toNat = 256 * hi.toNat + lo.toNat :=
  ⟨⟨rfl, rfl⟩, ⟨rfl, rfl⟩, ⟨rfl, rfl⟩, ⟨rfl, rfl⟩, ⟨0, by decide, rfl, rfl⟩, ⟨7, by decide, rfl, rfl⟩,
    ⟨0xFF#8, 0xFF#8, rfl, rfl⟩⟩

/-- A device that supplies an incomplete CALL. -/
theorem witness_OtherIntrAnswersAreRefused :
    let s : State := { start with now := { StepInput.quiet with intrBytes := [0xCD#8, 0x00#8] } }
    (¬ ∃ n : Nat, n < 8 ∧ s.now.intrBytes = [BitVec.ofNat 8 (0xC7 + 8 * n)]) ∧
      ¬ ∃ lo hi : Byte, s.now.intrBytes = [0xCD#8, lo, hi] := by
  refine ⟨?_, ?_⟩
  · rintro ⟨n, -, h⟩
    simp at h
  · rintro ⟨lo, hi, h⟩
    simp at h

theorem witness_HaltedMachineIdles :
    let s := atBoundary { unmasked with halted := true } StepInput.quiet
    (s.inputs.headD StepInput.quiet).resetIn = false ∧ s.takeInput.latchEdge.selected = none ∧ s.ctl.halted = true :=
  ⟨rfl, rfl, rfl⟩

/-- EI at 2000H, with RST 6.5 requested at the boundary that follows. -/
theorem witness_EiDefersMaskableInterruptsByOneInstruction :
    let s : State :=
      { start with
        ctl := { unmasked with ie := false }
        mem := [(0x2000, 0xFB#8)]
        inputs := [StepInput.quiet, lines false false true false false] }
    s.executes .ei ∧ ∃ t, step s = .next t := ⟨⟨rfl, rfl, rfl, rfl⟩, _, rfl⟩

/-- A masked edge with IE = 0, at a boundary where a NOP executes. -/
theorem witness_Rst75EdgeStaysLatched :
    let s := atBoundary State.reset.ctl (lines false true false false false)
    (∃ t, step s = .next t) ∧ ¬ s.resets ∧ ¬ s.enters .rst75 ∧ ¬ (s.executes .sim ∧ s.regs.a.getLsbD 4 = true) ∧
      ((s.inputs.headD StepInput.quiet).lines.r75Edge = true ∨ s.ctl.r75 = true) :=
  ⟨⟨_, rfl⟩, Bool.false_ne_true, fun h => absurd h.2 (by decide), fun h => absurd h.2 (by decide), .inl rfl⟩

theorem witness_DaaAfterAdditionGivesTheDecimalSum :
    let s : State := { start with regs := { zeroRegs with a := 0x99#8, b := 0x99#8 }, flags := allFlags }
    isBcd s.regs.a = true ∧ isBcd (s.getReg .b) = true ∧ isBcd (s.memRead s.hl) = true ∧ isBcd 0x00#8 = true := by decide

theorem witness_CallThenReturnComesBack :
    kindAt start.memMap (start.sp - 1) = .readWrite ∧ kindAt start.memMap (start.sp - 2) = .readWrite := by decide

theorem witness_PushThenPopRestores :
    kindAt start.memMap (start.sp - 1) = .readWrite ∧ kindAt start.memMap (start.sp - 2) = .readWrite ∧
      RegPair.hl ≠ .sp := by decide

theorem witness_ExchangesAndComplementsUndoThemselves :
    kindAt start.memMap start.sp = .readWrite ∧ kindAt start.memMap (start.sp + 1) = .readWrite ∧
      Instr.xthl ∈ [Instr.xchg, .xthl, .cma, .cmc] := by decide

/-- Halted, records left that state the port and present no reset and no line (program P7): ended. -/
theorem witness_EndedRunStaysHalted :
    let x : StepInput := { StepInput.quiet with ioRead := some 0x3C#8 }
    let s : State := { start with ctl := { unmasked with halted := true }, inputs := [x, x] }
    s.ctl.halted = true ∧ (∀ y ∈ s.inputs, y.resetIn = false ∧ y.lines = StepInput.quiet.lines) ∧
      (s.ctl.r75 = true → s.ctl.ie = false ∨ s.ctl.m75 = true) ∧ s.Ended = true := by decide

/-- A masked line does not take the machine out of the halt state. -/
theorem test_ended_masked_line :
    ({ start with ctl := { State.reset.ctl with halted := true }, inputs := [lines false true true true true] } :
      State).Ended = true := by decide

/-- Not ended: a TRAP, or a reset, in the last record; an RST 7.5 request still pending; the machine running. -/
theorem test_not_ended :
    let halted (c : Control) (inputs : List StepInput) : State :=
      { start with ctl := { c with halted := true }, inputs := inputs }
    (halted State.reset.ctl [StepInput.quiet, lines true false false false false]).Ended = false ∧
      (halted State.reset.ctl [StepInput.quiet, { StepInput.quiet with resetIn := true }]).Ended = false ∧
      (halted { unmasked with r75 := true, eiDelay := true } []).Ended = false ∧ start.Ended = false := by decide

end Sys2Proof.Tests
end

section
/-!
PROOFS. The end of a run (00_scope.md rule R14). A boundary of the halt state is either undisturbed, and then the step is
`State.pastBoundary`, or it leaves the halt state. So a run that stays halted is the iteration of `State.pastBoundary`.
-/

namespace Sys2Proof.Machine

/-! ## What a boundary does -/

theorem State.pastBoundary_ctl (s : State) :
    s.pastBoundary.ctl =
      { s.ctl with
        r75 := s.ctl.r75 || (s.inputs.headD StepInput.quiet).lines.r75Edge
        eiDelay := false } := rfl

/-- The frame of `k` boundaries of the halt state (10_state.md rule R43). -/
theorem State.iterate_pastBoundary_frame (k : Nat) (s : State) :
    State.pastBoundary^[k] s = { s with
      ctl := { s.ctl with
        r75 := (State.pastBoundary^[k] s).ctl.r75
        eiDelay := (State.pastBoundary^[k] s).ctl.eiDelay }
      inputs := s.inputs.drop k
      now := (State.pastBoundary^[k] s).now
      tick := s.tick + k } := by
  induction k with
  | zero => rfl
  | succ k ih =>
    rw [Function.iterate_succ_apply', ih]
    simp [State.pastBoundary, Nat.add_assoc]

theorem State.iterate_pastBoundary_halted (k : Nat) (s : State) :
    (State.pastBoundary^[k] s).ctl.halted = s.ctl.halted := by
  rw [State.iterate_pastBoundary_frame]

/-! ## Runs -/

theorem run_zero (s : State) : Sys2Proof.core.run 0 s = .next s := rfl

theorem run_succ_of_step (s t : State) (k : Nat) (h : step s = .next t) :
    Sys2Proof.core.run (k + 1) s = Sys2Proof.core.run k t := by
  have hcore : Sys2Proof.core.step s = .next t := h
  simp only [Host.Core.run, hcore]

theorem step_of_run_one (s t : State) (h : Sys2Proof.core.run 1 s = .next t) : step s = .next t := by
  have hcore : Sys2Proof.core.step s = step s := rfl
  cases hs : step s with
  | next u =>
    rw [run_succ_of_step s u 0 hs, run_zero] at h
    exact h
  | fault r => simp [Host.Core.run, hcore, hs] at h
  | refused r => simp [Host.Core.run, hcore, hs] at h

/-- While nothing disturbs the halt state, a run only passes boundaries. -/
theorem run_of_halted_undisturbed (k : Nat) (s : State) (hh : s.ctl.halted = true) (hu : s.undisturbed k = true) :
    Sys2Proof.core.run k s = .next (State.pastBoundary^[k] s) := by
  induction k generalizing s with
  | zero => rfl
  | succ k ih =>
    obtain ⟨hstep, hrest⟩ := step_of_halted_undisturbed s k hh hu
    rw [run_succ_of_step s _ k hstep, Function.iterate_succ_apply]
    exact ih s.pastBoundary hh hrest

/-! ## Leaving the halt state -/

/-- Every entry leaves the halt state (60_exceptions.md rule R347). -/
theorem State.enter_not_halted (s t : State) (src : Source) (h : s.enter src = .next t) : t.ctl.halted = false := by
  obtain ⟨target, -, rfl⟩ := s.enter_cases t src h
  rfl

/-- A step from the halt state into the halt state is neither a reset nor an entry (10_state.md rule R43). -/
theorem undisturbed_of_step_stays_halted (s t : State) (hh : s.ctl.halted = true) (hs : step s = .next t)
    (ht : t.ctl.halted = true) : s.undisturbed 1 = true := by
  obtain ⟨-, rfl⟩ | ⟨hr, ⟨src, -, henter⟩ | ⟨hsel, -, -⟩ | ⟨-, hrunning, -⟩⟩ := step_cases s t hs
  case inl => simp [resetControl] at ht
  case inr.inl => simp [State.enter_not_halted _ _ src henter] at ht
  case inr.inr.inl => exact (s.undisturbed_succ 0).mpr ⟨⟨hr, hsel⟩, rfl⟩
  case inr.inr.inr => simp [hh] at hrunning

theorem halted_of_run_zero (s : State)
    (h : ∃ t : State, Sys2Proof.core.run 0 s = .next t ∧ t.ctl.halted = true) : s.ctl.halted = true := by
  obtain ⟨t, hrun, ht⟩ := h
  rw [run_zero] at hrun
  cases hrun
  exact ht

/-- A machine no run takes out of the halt state is undisturbed at every boundary. -/
theorem undisturbed_of_runs_stay_halted (k : Nat) (s : State)
    (h : ∀ n, ∃ t : State, Sys2Proof.core.run n s = .next t ∧ t.ctl.halted = true) : s.undisturbed k = true := by
  induction k generalizing s with
  | zero => rfl
  | succ k ih =>
    have hh : s.ctl.halted = true := halted_of_run_zero s (h 0)
    obtain ⟨t, hrun, ht⟩ := h 1
    have hone := undisturbed_of_step_stays_halted s t hh (step_of_run_one s t hrun) ht
    have hpast := (step_of_halted_undisturbed s 0 hh hone).1
    refine (s.undisturbed_succ k).mpr ⟨((s.undisturbed_succ 0).mp hone).1, ih _ fun n => ?_⟩
    rw [← run_succ_of_step s _ n hpast]
    exact h (n + 1)

/-! ## `Ended` -/

theorem State.ended_iff (s : State) :
    s.Ended = true ↔ s.ctl.halted = true ∧ ∀ k, s.undisturbed k = true := by
  simp only [State.Ended, Bool.and_eq_true]
  exact and_congr_right fun _ => ⟨fun h k => s.undisturbed_of_length k h, fun h => h _⟩

/-- The run of an ended machine, at every length. -/
theorem run_of_ended (k : Nat) (s : State) (h : s.Ended = true) :
    Sys2Proof.core.run k s = .next (State.pastBoundary^[k] s) := by
  obtain ⟨hh, hu⟩ := s.ended_iff.mp h
  exact run_of_halted_undisturbed k s hh (hu k)

theorem ended_iff_runs_stay_halted (s : State) :
    s.Ended = true ↔ ∀ k, ∃ t : State, Sys2Proof.core.run k s = .next t ∧ t.ctl.halted = true := by
  constructor
  · intro h k
    refine ⟨_, run_of_ended k s h, ?_⟩
    rw [State.iterate_pastBoundary_halted]
    exact (s.ended_iff.mp h).1
  · intro h
    exact s.ended_iff.mpr ⟨halted_of_run_zero s (h 0), fun k => undisturbed_of_runs_stay_halted k s h⟩

/-! ## Environments that present nothing -/

/-- No reset and no interrupt line in the record, whatever it says of SID and IORead. -/
def StepInput.Silent (x : StepInput) : Prop := x.resetIn = false ∧ x.lines = StepInput.quiet.lines

/-- No record left presents anything, and a pending RST 7.5 request could not be recognised. -/
def State.Silent (s : State) : Prop :=
  (∀ x ∈ s.inputs, x.Silent) ∧ (s.ctl.r75 = true → s.ctl.ie = false ∨ s.ctl.m75 = true)

/-- The record the next step takes is silent, the one taken from an empty queue (log 5) included. -/
theorem State.Silent.next_input {s : State} (h : s.Silent) : (s.inputs.headD StepInput.quiet).Silent := by
  cases hi : s.inputs with
  | nil => exact ⟨rfl, rfl⟩
  | cons x rest => exact h.1 x (by simp [hi])

/-- With no line at 1, and RST 7.5's latch clear, masked or disabled, no source is recognised (60_exceptions.md rule
R340). -/
theorem State.selected_eq_none_of_quiet_lines (s : State) (hlines : s.now.lines = StepInput.quiet.lines)
    (hlatch : s.ctl.r75 = true → s.ctl.ie = false ∨ s.ctl.m75 = true) : s.selected = none := by
  refine s.selected_eq_none_iff.mpr fun src => ?_
  cases src with
  | rst75 =>
    cases hr : s.ctl.r75 with
    | false => simp [State.recognised, hr]
    | true => rcases hlatch hr with hie | hmask <;> simp [State.recognised, *]
  | trap => simp [State.recognised, hlines, StepInput.quiet]
  | rst65 => simp [State.recognised, hlines, StepInput.quiet]
  | rst55 => simp [State.recognised, hlines, StepInput.quiet]
  | intr => simp [State.recognised, hlines, StepInput.quiet]

/-- A silent boundary latches no RST 7.5 edge. -/
theorem State.Silent.r75_pastBoundary {s : State} (h : s.Silent) : s.pastBoundary.ctl.r75 = s.ctl.r75 := by
  obtain ⟨-, hlines⟩ := h.next_input
  rw [State.pastBoundary_ctl, hlines]
  exact Bool.or_false _

theorem State.Silent.selected_eq_none {s : State} (h : s.Silent) : s.takeInput.latchEdge.selected = none := by
  refine State.selected_eq_none_of_quiet_lines _ h.next_input.2 fun hr => h.2 ?_
  exact h.r75_pastBoundary.symm.trans hr

theorem State.Silent.pastBoundary {s : State} (h : s.Silent) : s.pastBoundary.Silent :=
  ⟨fun x hx => h.1 x (List.mem_of_mem_tail hx), fun hr => h.2 (h.r75_pastBoundary.symm.trans hr)⟩

theorem State.Silent.undisturbed {s : State} (h : s.Silent) (k : Nat) : s.undisturbed k = true := by
  induction k generalizing s with
  | zero => rfl
  | succ k ih => exact (s.undisturbed_succ k).mpr ⟨⟨h.next_input.1, h.selected_eq_none⟩, ih h.pastBoundary⟩

/-! ## The obligation -/

/-- Settles O55: the run of an ended machine is the iteration of `State.pastBoundary`, whose frame is the third part; a
silent environment disturbs no boundary. -/
theorem endedRunStaysHalted : Obligations.EndedRunStaysHalted := by
  refine ⟨ended_iff_runs_stay_halted, ?sufficient, ?frame⟩
  case sufficient =>
    intro s hh hinputs hlatch
    have hsilent : s.Silent := ⟨hinputs, hlatch⟩
    exact s.ended_iff.mpr ⟨hh, hsilent.undisturbed⟩
  case frame =>
    intro s t k hended hrun
    rw [run_of_ended k s hended] at hrun
    cases hrun
    exact s.iterate_pastBoundary_frame k

end Sys2Proof.Machine
end

section
/-!
PROOFS. What an instruction leaves, part of the state by part: memory (20_memory.md rule R62), the control state
(10_state.md rules R38 to R45), the flags (rule R37) and the pc (rules R27, R29). On these the invariant of every step
rests.
-/

namespace Sys2Proof.Machine

/-! ## The state after an instruction -/

/-- The state an instruction leaves, without the outcome around it. -/
def State.afterExec (s : State) (i : Instr) : State :=
  match exec i s with
  | .next t => t
  | .fault _ => s
  | .refused _ => s

/-- Every arm of `exec` completes (60_exceptions.md rule R331). -/
theorem exec_eq_next_afterExec (i : Instr) (s : State) : exec i s = .next (s.afterExec i) := by
  cases i <;> rfl

theorem eq_afterExec_of_exec {i : Instr} {s t : State} (h : exec i s = .next t) : t = s.afterExec i := by
  rw [exec_eq_next_afterExec] at h
  exact (Host.Outcome.next.inj h).symm

/-! ## Conditional transfers: control state, memory, flags, pc -/

@[simp] theorem State.jumpIf_ctl (s : State) (cond : Cond) (target : Word) : (s.jumpIf cond target).ctl = s.ctl := by
  unfold State.jumpIf; split <;> rfl

@[simp] theorem State.callIf_ctl (s : State) (cond : Cond) (target : Word) : (s.callIf cond target).ctl = s.ctl := by
  unfold State.callIf; split <;> rfl

@[simp] theorem State.retIf_ctl (s : State) (cond : Cond) : (s.retIf cond).ctl = s.ctl := by
  unfold State.retIf; split <;> rfl

@[simp] theorem State.jumpIf_flags (s : State) (cond : Cond) (target : Word) :
    (s.jumpIf cond target).flags = s.flags := by
  unfold State.jumpIf; split <;> rfl

@[simp] theorem State.callIf_flags (s : State) (cond : Cond) (target : Word) :
    (s.callIf cond target).flags = s.flags := by
  unfold State.callIf; split <;> rfl

@[simp] theorem State.retIf_flags (s : State) (cond : Cond) : (s.retIf cond).flags = s.flags := by
  unfold State.retIf; split <;> rfl

@[simp] theorem State.jumpIf_mem (s : State) (cond : Cond) (target : Word) : (s.jumpIf cond target).mem = s.mem := by
  unfold State.jumpIf; split <;> rfl

@[simp] theorem State.retIf_mem (s : State) (cond : Cond) : (s.retIf cond).mem = s.mem := by
  unfold State.retIf; split <;> rfl

theorem State.callIf_mem (s : State) (cond : Cond) (target : Word) :
    (s.callIf cond target).mem = if s.flags.holds cond then (s.push16 (s.pc + 3)).mem else s.mem := by
  unfold State.callIf; split <;> rfl

/-! ## Memory -/

/-- What an instruction can make of memory: nothing, one byte written, or two (20_memory.md rules R62, R70). -/
inductive State.Stores (s : State) : Memory → Prop where
  | nothing : s.Stores s.mem
  | one (a : Word) (v : Byte) : s.Stores (s.memWrite a v).mem
  | two (a b : Word) (v w : Byte) : s.Stores ((s.memWrite a v).memWrite b w).mem

theorem State.Stores.callIf (s : State) (cond : Cond) (target : Word) : s.Stores (s.callIf cond target).mem := by
  rw [State.callIf_mem]
  split
  · exact .two _ _ _ _
  · exact .nothing

theorem State.Stores.afterExec (s : State) (i : Instr) : s.Stores (s.afterExec i).mem := by
  cases i with
  | movMR | mviM | stax | sta | inrM | dcrM => exact .one _ _
  | shld | xthl | pushRp | pushPsw | call | rst => exact .two _ _ _ _
  | cc | cnc | cz | cnz | cp | cm | cpe | cpo => exact .callIf s _ _
  | jc | jnc | jz | jnz | jp | jm | jpe | jpo => exact s.jumpIf_mem _ _ ▸ .nothing
  | rc | rnc | rz | rnz | rp | rm | rpe | rpo => exact s.retIf_mem _ ▸ .nothing
  | _ => exact .nothing

theorem State.Stores.wf {s : State} {m : Memory} (h : s.Stores m) (hs : s.mem.wf = true) : m.wf = true := by
  cases h with
  | nothing => exact hs
  | one a v => exact s.memAfterWrite_wf a v hs
  | two a b v w => exact State.memAfterWrite_wf _ b w (s.memAfterWrite_wf a v hs)

/-! ## Control state -/

/-- The control state an instruction leaves: only DI, EI, HLT, RIM and SIM write it (43_machine_control_io.md rules R250
to R257). -/
def State.controlAfter (s : State) : Instr → Control
  | .di => { s.ctl with ie := false }
  | .ei => { s.ctl with ie := true, eiDelay := true }
  | .hlt => { s.ctl with halted := true }
  | .rim => { s.ctl with trapIeValid := false }
  | .sim => simControl s.regs.a s.ctl
  | _ => s.ctl

theorem State.afterExec_ctl (s : State) (i : Instr) : (s.afterExec i).ctl = s.controlAfter i := by
  cases i with
  | jc | jnc | jz | jnz | jp | jm | jpe | jpo => exact s.jumpIf_ctl _ _
  | cc | cnc | cz | cnz | cp | cm | cpe | cpo => exact s.callIf_ctl _ _
  | rc | rnc | rz | rnz | rp | rm | rpe | rpo => exact s.retIf_ctl _
  | _ => rfl

/-- Only EI writes `ei_delay` (10_state.md rule R44). -/
theorem State.controlAfter_eiDelay_of_ne_ei (s : State) {i : Instr} (h : i ≠ .ei) :
    (s.controlAfter i).eiDelay = s.ctl.eiDelay := by
  cases i with
  | ei => exact absurd rfl h
  | _ => rfl

/-! ## The invariant -/

theorem State.inv_iff (s : State) :
    s.Inv = true ↔ s.mem.wf = true ∧ (s.ctl.eiDelay = true → s.ctl.ie = true ∧ s.ctl.halted = false) := by
  cases h : s.ctl.eiDelay <;> simp [State.Inv, h]

theorem State.inv_of_eiDelay_eq_false {s : State} (hmem : s.mem.wf = true) (he : s.ctl.eiDelay = false) :
    s.Inv = true :=
  s.inv_iff.mpr ⟨hmem, fun h => by simp [he] at h⟩

/-- An entry keeps `ei_delay` as the boundary left it and pushes the pc (60_exceptions.md rule R347). -/
theorem State.inv_of_enter {s t : State} {src : Source} (hmem : s.mem.wf = true) (he : s.ctl.eiDelay = false)
    (h : s.enter src = .next t) : t.Inv = true := by
  obtain ⟨target, -, rfl⟩ := s.enter_cases t src h
  exact State.inv_of_eiDelay_eq_false (State.push16_wf _ _ hmem) he

/-- An instruction that runs with no delay pending sets the delay only together with IE, and then it is no HLT. -/
theorem State.inv_afterExec {s : State} (i : Instr) (hmem : s.mem.wf = true) (he : s.ctl.eiDelay = false)
    (hh : s.ctl.halted = false) : (s.afterExec i).Inv = true := by
  have hwf : (s.afterExec i).mem.wf = true := (State.Stores.afterExec s i).wf hmem
  by_cases hi : i = .ei
  · subst hi
    exact (State.inv_iff _).mpr ⟨hwf, fun _ => ⟨rfl, hh⟩⟩
  · refine State.inv_of_eiDelay_eq_false hwf ?_
    rw [s.afterExec_ctl, s.controlAfter_eiDelay_of_ne_ei hi, he]

/-- Settles O11: each of the four kinds of step ends with `ei_delay` 0 but an EI, and writes memory only through
`State.memWrite`. -/
theorem everyStepKeepsTheInvariant : Obligations.EveryStepKeepsTheInvariant := by
  intro s t hinv hstep
  have hmem : s.mem.wf = true := (s.inv_iff.mp hinv).1
  obtain ⟨-, rfl⟩ | ⟨-, ⟨src, -, henter⟩ | ⟨-, -, rfl⟩ | ⟨-, hrunning, i, -, hexec⟩⟩ := step_cases s t hstep
  case inl => exact State.inv_of_eiDelay_eq_false hmem rfl
  case inr.inl => exact State.inv_of_enter (s := s.takeInput.latchEdge.endEiDelay) hmem rfl henter
  case inr.inr.inl => exact State.inv_of_eiDelay_eq_false hmem rfl
  case inr.inr.inr =>
    rw [eq_afterExec_of_exec hexec]
    exact State.inv_afterExec i hmem rfl hrunning

/-- Settles O12: memory lists nothing and no delay is pending. -/
theorem resetMeetsTheInvariant : Obligations.ResetMeetsTheInvariant :=
  State.inv_of_eiDelay_eq_false reset_mem_wf rfl

/-! ## The pc -/

theorem State.following_eq_add (s : State) (n : Nat) : s.following n = s.pc + BitVec.ofNat 16 n := by
  apply BitVec.eq_of_toNat_eq
  simp [State.following]

/-- A conditional jump not taken goes on at the next instruction (42_branch.md rule R200). -/
theorem State.jumpIf_taken_or_following (s : State) {cond : Cond} {target : Word} {Taken : Prop}
    (htaken : s.flags.holds cond = true → Taken) : Taken ∨ (s.jumpIf cond target).pc = s.following 3 := by
  cases h : s.flags.holds cond with
  | true => exact .inl (htaken h)
  | false => exact .inr (by rw [s.jumpIf_not_taken cond target h, s.following_eq_add]; rfl)

theorem State.callIf_taken_or_following (s : State) {cond : Cond} {target : Word} {Taken : Prop}
    (htaken : s.flags.holds cond = true → Taken) : Taken ∨ (s.callIf cond target).pc = s.following 3 := by
  cases h : s.flags.holds cond with
  | true => exact .inl (htaken h)
  | false => exact .inr (by rw [s.callIf_not_taken cond target h, s.following_eq_add]; rfl)

theorem State.retIf_taken_or_following (s : State) {cond : Cond} {Taken : Prop}
    (htaken : s.flags.holds cond = true → Taken) : Taken ∨ (s.retIf cond).pc = s.following 1 := by
  cases h : s.flags.holds cond with
  | true => exact .inl (htaken h)
  | false => exact .inr (by rw [s.retIf_not_taken cond h, s.following_eq_add]; rfl)

/-- Settles O10: the unconditional transfers are exempt, a conditional one not taken and every other instruction advance
the pc by the length of the encoding. -/
theorem onlyTransfersLeaveTheSequence : Obligations.OnlyTransfersLeaveTheSequence := by
  intro i s t h
  rw [eq_afterExec_of_exec h]
  cases i with
  | jmp | call | ret | pchl | rst => exact .inl trivial
  | jc | jz | jpe | jm => exact s.jumpIf_taken_or_following id
  | cc | cz | cpe | cm => exact s.callIf_taken_or_following id
  | rc | rz | rpe | rm => exact s.retIf_taken_or_following id
  | jnc | jnz | jpo | jp => exact s.jumpIf_taken_or_following (Bool.not_eq_true' _).mp
  | cnc | cnz | cpo | cp => exact s.callIf_taken_or_following (Bool.not_eq_true' _).mp
  | rnc | rnz | rpo | rp => exact s.retIf_taken_or_following (Bool.not_eq_true' _).mp
  | _ => exact .inr (s.following_eq_add _).symm

/-! ## Flags -/

/-- Settles O14: row by row of the table of rule R37; the conditional transfers write no flag whether taken or not. -/
theorem flagsChangeOnlyAsTheFlagTableSays : Obligations.FlagsChangeOnlyAsTheFlagTableSays := by
  intro i s t h
  rw [eq_afterExec_of_exec h]
  cases i with
  | addR | addM | adcR | adcM | adi | aci | subR | subM | sbbR | sbbM | sui | sbi | cmpR | cmpM | cpi | daa | popPsw =>
    exact trivial
  | anaR | anaM | ani | oraR | oraM | ori | xraR | xraM | xri => exact ⟨rfl, rfl⟩
  | jc | jnc | jz | jnz | jp | jm | jpe | jpo => exact s.jumpIf_flags _ _
  | cc | cnc | cz | cnz | cp | cm | cpe | cpo => exact s.callIf_flags _ _
  | rc | rnc | rz | rnz | rp | rm | rpe | rpo => exact s.retIf_flags _
  | _ => rfl

/-! ## The boundary -/

/-- A step that executes an instruction is `exec` on the state past the boundary (60_exceptions.md rule R330 line 7). -/
theorem step_of_executes {s : State} {i : Instr} (h : s.executes i) : step s = exec i s.pastBoundary := by
  obtain ⟨hreset, hselected, hrunning, hfetch⟩ := h
  have hreset' : s.takeInput.now.resetIn = false := hreset
  have hrunning' : s.takeInput.latchEdge.endEiDelay.ctl.halted = false := hrunning
  have hfetch' : s.takeInput.latchEdge.endEiDelay.fetch = .ok i := hfetch
  simp only [step, hreset', hselected, hrunning', hfetch', Bool.false_eq_true, if_false]
  rfl

/-- While the delay is pending only TRAP is recognised (60_exceptions.md rule R340). -/
theorem State.selected_of_eiDelay {s : State} (h : s.ctl.eiDelay = true) :
    s.selected = none ∨ s.selected = some .trap := by
  cases hs : s.selected with
  | none => exact .inl rfl
  | some src =>
    have hrec := s.recognised_of_selected src hs
    cases src with
    | trap => exact .inr rfl
    | rst75 | rst65 | rst55 | intr => simp [State.recognised, h] at hrec

/-- Settles O23: EI leaves IE and `ei_delay` at 1, and the boundary keeps the delay until the sources are looked at. -/
theorem eiDefersMaskableInterruptsByOneInstruction : Obligations.EiDefersMaskableInterruptsByOneInstruction := by
  intro s t hei hstep
  rw [step_of_executes hei] at hstep
  rw [eq_afterExec_of_exec hstep]
  exact ⟨rfl, State.selected_of_eiDelay rfl, rfl⟩

/-- Settles O22: a boundary of the halt state with nothing presented. -/
theorem haltedMachineIdles : Obligations.HaltedMachineIdles := by
  intro s hreset hselected hhalted
  have hone : s.undisturbed 1 = true := (s.undisturbed_succ 0).mpr ⟨⟨hreset, hselected⟩, rfl⟩
  exact (step_of_halted_undisturbed s 0 hhalted hone).1

/-! ## Reset -/

/-- With IE, RST 7.5's latch and the saved IE out of the way and all masks set, the bits of RIM's word that are no input
line are the masks (43_machine_control_io.md rule R256). -/
theorem rimByte_masked {s : State} (hie : s.ctl.ie = false) (h75 : s.ctl.m75 = true) (h65 : s.ctl.m65 = true)
    (h55 : s.ctl.m55 = true) (hlatch : s.ctl.r75 = false) (hvalid : s.ctl.trapIeValid = false) :
    rimByte s &&& 0x4F#8 = 0x07#8 := by
  simp only [rimByte, hie, h75, h65, h55, hlatch, hvalid, Bool.false_eq_true, if_false]
  generalize s.sidLevel = sid, s.now.lines.r65 = r65, s.now.lines.r55 = r55
  revert sid r65 r55
  decide

/-- Settles O16: the fields of `State.reset` as they are written there, and RIM by `rimByte_masked`. -/
theorem resetLeavesTheSpecifiedControlState : Obligations.ResetLeavesTheSpecifiedControlState := by
  refine ⟨rfl, rfl, rfl, rfl, rfl, rfl, rfl, rfl, rfl, rfl, ?rim⟩
  case rim =>
    intro s hie h75 h65 h55 hlatch hvalid
    exact ⟨s.afterExec .rim, exec_eq_next_afterExec .rim s, rimByte_masked hie h75 h65 h55 hlatch hvalid⟩

end Sys2Proof.Machine
end

section
/-!
PROOFS. The frame of memory (20_memory.md rule R62): what a read gives after one store, after two, after a conditional
transfer, and so after any instruction.
-/

namespace Sys2Proof.Machine

/-! ## Reads after stores -/

theorem State.memRead_one_store (s : State) {a x : Word} (v : Byte) (h : a ∉ [x]) :
    (s.memWrite x v).memRead a = s.memRead a :=
  s.memRead_memWrite_ne x a v (List.ne_of_not_mem_cons h)

theorem State.memRead_two_stores (s : State) {a x y : Word} (v w : Byte) (h : a ∉ [x, y]) :
    ((s.memWrite x v).memWrite y w).memRead a = s.memRead a := by
  have hy : a ∉ [y] := List.not_mem_of_not_mem_cons h
  rw [State.memRead_one_store _ w hy, s.memRead_memWrite_ne x a v (List.ne_of_not_mem_cons h)]

/-! ## Reads after conditional transfers -/

@[simp] theorem State.jumpIf_memRead (s : State) (cond : Cond) (target a : Word) :
    (s.jumpIf cond target).memRead a = s.memRead a := by
  unfold State.jumpIf; split <;> rfl

@[simp] theorem State.retIf_memRead (s : State) (cond : Cond) (a : Word) :
    (s.retIf cond).memRead a = s.memRead a := by
  unfold State.retIf; split <;> rfl

/-- A conditional call taken pushes two bytes; not taken, it stores nothing (42_branch.md rules R200, R202). -/
theorem State.callIf_memRead (s : State) {cond : Cond} {target a : Word}
    (h : a ∉ if s.flags.holds cond then [s.sp - 1, s.sp - 2] else []) :
    (s.callIf cond target).memRead a = s.memRead a := by
  cases htaken : s.flags.holds cond with
  | true =>
    rw [htaken, if_pos rfl] at h
    rw [s.callIf_taken cond target htaken]
    exact s.memRead_two_stores _ _ h
  | false =>
    rw [s.callIf_not_taken cond target htaken]
    rfl

/-! ## The obligation -/

/-- Settles O13: form by form, an instruction stores one byte, two bytes, two if its condition holds, or none. -/
theorem onlyStoredBytesOfMemoryChange : Obligations.OnlyStoredBytesOfMemoryChange := by
  intro i s t a hexec h
  rw [eq_afterExec_of_exec hexec]
  cases i with
  | movMR | mviM | stax | sta | inrM | dcrM => exact s.memRead_one_store _ h
  | shld | xthl | pushRp | pushPsw | call | rst => exact s.memRead_two_stores _ _ h
  | cc | cnc | cz | cnz | cp | cm | cpe | cpo => exact s.callIf_memRead h
  | jc | jnc | jz | jnz | jp | jm | jpe | jpo => exact s.jumpIf_memRead _ _ a
  | rc | rnc | rz | rnz | rp | rm | rpe | rpo => exact s.retIf_memRead _ a
  | _ => rfl

end Sys2Proof.Machine
end

section
/-!
PROOFS. The decoder and the encoder undo each other (30_encoding.md rules R90 to R107). From bytes to instructions the
opcode map is read quadrant by quadrant and row by row, and each template on it has the opcode byte as its encoding;
from instructions to bytes, each constructor's encoding starts with an opcode byte that selects it.
-/

namespace Sys2Proof

/-! ## What the decoder does -/

/-- The instruction a template gives for its operand bytes, low-order byte first (rules R91, R92, R94). -/
inductive Template.Reads : Template → List Byte → Instr → Prop where
  | f1 (i : Instr) : (Template.f1 i).Reads [] i
  | f2 (i : Byte → Instr) (data : Byte) : (Template.f2 i).Reads [data] (i data)
  | f3 (i : Word → Instr) (lo hi : Byte) : (Template.f3 i).Reads [lo, hi] (i (wordOf hi lo))

theorem Template.Reads.length_eq {t : Template} {operands : List Byte} {i : Instr} (h : t.Reads operands i) :
    operands.length + 1 = t.length := by
  cases h <;> rfl

/-- The decoder takes the operand bytes that the opcode's template asks for, and leaves what follows. -/
theorem decode_cons_eq_ok_iff (op : Byte) (tail rest : List Byte) (i : Instr) :
    decode (op :: tail) = .ok (i, rest) ↔
      ∃ t operands, decodeOpcode op = some t ∧ t.Reads operands i ∧ tail = operands ++ rest := by
  constructor
  · intro h
    cases hop : decodeOpcode op with
    | none => simp [decode, hop] at h
    | some t =>
      cases t with
      | f1 mk =>
        obtain ⟨rfl, rfl⟩ : mk = i ∧ tail = rest := by simpa [decode, hop] using h
        exact ⟨_, _, rfl, .f1 mk, rfl⟩
      | f2 mk =>
        match tail with
        | [] => simp [decode, hop] at h
        | data :: tail =>
          obtain ⟨rfl, rfl⟩ : mk data = i ∧ tail = rest := by simpa [decode, hop] using h
          exact ⟨_, _, rfl, .f2 mk data, rfl⟩
      | f3 mk =>
        match tail with
        | [] | [_] => simp [decode, hop] at h
        | lo :: hi :: tail =>
          obtain ⟨rfl, rfl⟩ : mk (wordOf hi lo) = i ∧ tail = rest := by simpa [decode, hop] using h
          exact ⟨_, _, rfl, .f3 mk lo hi, rfl⟩
  · rintro ⟨t, operands, hop, hreads, rfl⟩
    cases hreads <;> simp [decode, hop]

/-- Too few operand bytes are another error, so this one speaks of the opcode byte alone. -/
theorem decode_cons_eq_unassigned_iff (op : Byte) (tail : List Byte) :
    decode (op :: tail) = .error (.unassignedOpcode op) ↔ decodeOpcode op = none := by
  cases hop : decodeOpcode op with
  | none => simp [decode, hop]
  | some t =>
    cases t with
    | f1 mk => simp [decode, hop]
    | f2 mk => cases tail <;> simp [decode, hop]
    | f3 mk => rcases tail with _ | ⟨_, _ | ⟨_, _⟩⟩ <;> simp [decode, hop]

/-! ## From the opcode map to the encoder -/

/-- The opcode byte's three fields, `oo yyy zzz` (rule R99). -/
theorem opcode_eq_append_fields (op : Byte) :
    op = op.extractLsb' 6 2 ++ op.extractLsb' 3 3 ++ op.extractLsb' 0 3 := by
  revert op
  decide

theorem twoBits_cases {motive : BitVec 2 → Prop} (b00 : motive 0b00#2) (b01 : motive 0b01#2)
    (b10 : motive 0b10#2) (b11 : motive 0b11#2) (x : BitVec 2) : motive x :=
  match x with
  | 0b00#2 => b00
  | 0b01#2 => b01
  | 0b10#2 => b10
  | 0b11#2 => b11

theorem threeBits_cases {motive : BitVec 3 → Prop} (b000 : motive 0b000#3) (b001 : motive 0b001#3)
    (b010 : motive 0b010#3) (b011 : motive 0b011#3) (b100 : motive 0b100#3) (b101 : motive 0b101#3)
    (b110 : motive 0b110#3) (b111 : motive 0b111#3) (x : BitVec 3) : motive x :=
  match x with
  | 0b000#3 => b000
  | 0b001#3 => b001
  | 0b010#3 => b010
  | 0b011#3 => b011
  | 0b100#3 => b100
  | 0b101#3 => b101
  | 0b110#3 => b110
  | 0b111#3 => b111

/-- Every instruction an entry of the opcode map gives is well formed, and its encoding is the entry's opcode byte
followed by its operand bytes. -/
inductive EncodesAs (op : Byte) : Option Template → Prop where
  | unassigned : EncodesAs op none
  | f1 {i : Instr} (hwf : i.wellFormed = true) (hbytes : encode i = [op]) : EncodesAs op (some (.f1 i))
  | f2 {i : Byte → Instr} (hwf : ∀ data, (i data).wellFormed = true) (hbytes : ∀ data, encode (i data) = [op, data]) :
      EncodesAs op (some (.f2 i))
  | f3 {i : Word → Instr} (hwf : ∀ w, (i w).wellFormed = true) (hbytes : ∀ w, encode (i w) = encodeF3 op w) :
      EncodesAs op (some (.f3 i))

/-- The rows of quadrant `00`: NOP, RIM, SIM; LXI and DAD; the direct and indirect loads and stores; INX and DCX; INR;
DCR; MVI; the rotates, DAA, CMA, STC, CMC. -/
theorem encodesAs_decodeMisc (y z : BitVec 3) : EncodesAs (0b00#2 ++ y ++ z) (decodeMisc y z) := by
  cases z using threeBits_cases with
  | b000 =>
    cases y using threeBits_cases with
    | b000 | b100 | b110 => exact .f1 rfl rfl
    | _ => exact .unassigned
  | b001 =>
    cases y using threeBits_cases with
    | b000 | b010 | b100 | b110 => exact .f3 (fun _ => rfl) fun _ => rfl
    | _ => exact .f1 rfl rfl
  | b010 =>
    cases y using threeBits_cases with
    | b000 | b001 | b010 | b011 => exact .f1 rfl rfl
    | _ => exact .f3 (fun _ => rfl) fun _ => rfl
  | b110 => cases y using threeBits_cases with | _ => exact .f2 (fun _ => rfl) fun _ => rfl
  | _ => cases y using threeBits_cases with | _ => exact .f1 rfl rfl

/-- Quadrant `01`: a code that names no register stands for M, and two of them for HLT. -/
theorem encodesAs_decodeMove (y z : BitVec 3) : EncodesAs (0b01#2 ++ y ++ z) (decodeMove y z) := by
  unfold decodeMove
  cases hy : Reg.ofCode y with
  | some rd =>
    obtain rfl := (Reg.ofCode_eq_some_iff y rd).mp hy
    cases hz : Reg.ofCode z with
    | some rs =>
      obtain rfl := (Reg.ofCode_eq_some_iff z rs).mp hz
      exact .f1 rfl rfl
    | none =>
      obtain rfl := (Reg.ofCode_eq_none_iff z).mp hz
      exact .f1 rfl rfl
  | none =>
    obtain rfl := (Reg.ofCode_eq_none_iff y).mp hy
    cases hz : Reg.ofCode z with
    | some rs =>
      obtain rfl := (Reg.ofCode_eq_some_iff z rs).mp hz
      exact .f1 rfl rfl
    | none =>
      obtain rfl := (Reg.ofCode_eq_none_iff z).mp hz
      exact .f1 rfl rfl

/-- Quadrant `10`: the eight operations, with a register or with M. -/
theorem encodesAs_decodeAlu (y z : BitVec 3) : EncodesAs (0b10#2 ++ y ++ z) (decodeAlu y z) := by
  unfold decodeAlu
  cases hz : Reg.ofCode z with
  | some r =>
    obtain rfl := (Reg.ofCode_eq_some_iff z r).mp hz
    cases y using threeBits_cases with | _ => exact .f1 rfl rfl
  | none =>
    obtain rfl := (Reg.ofCode_eq_none_iff z).mp hz
    cases y using threeBits_cases with | _ => exact .f1 rfl rfl

/-- The rows of quadrant `11`: conditional returns; POP and RET, PCHL, SPHL; conditional jumps; JMP, OUT, IN, XTHL,
XCHG, DI, EI; conditional calls; PUSH and CALL; the immediate operations; RST. -/
theorem encodesAs_decodeBranch (y z : BitVec 3) : EncodesAs (0b11#2 ++ y ++ z) (decodeBranch y z) := by
  cases z using threeBits_cases with
  | b000 => cases y using threeBits_cases with | _ => exact .f1 rfl rfl
  | b001 =>
    cases y using threeBits_cases with
    | b011 => exact .unassigned
    | _ => exact .f1 rfl rfl
  | b010 | b100 => cases y using threeBits_cases with | _ => exact .f3 (fun _ => rfl) fun _ => rfl
  | b011 =>
    cases y using threeBits_cases with
    | b000 => exact .f3 (fun _ => rfl) fun _ => rfl
    | b001 => exact .unassigned
    | b010 | b011 => exact .f2 (fun _ => rfl) fun _ => rfl
    | _ => exact .f1 rfl rfl
  | b101 =>
    cases y using threeBits_cases with
    | b001 => exact .f3 (fun _ => rfl) fun _ => rfl
    | b000 | b010 | b100 | b110 => exact .f1 rfl rfl
    | _ => exact .unassigned
  | b110 => cases y using threeBits_cases with | _ => exact .f2 (fun _ => rfl) fun _ => rfl
  | b111 => exact .f1 rfl rfl

theorem encodesAs_decodeOpcode (op : Byte) : EncodesAs op (decodeOpcode op) := by
  have hop := opcode_eq_append_fields op
  unfold decodeOpcode
  generalize op.extractLsb' 6 2 = quadrant, op.extractLsb' 3 3 = y, op.extractLsb' 0 3 = z at hop ⊢
  subst hop
  cases quadrant using twoBits_cases with
  | b00 => exact encodesAs_decodeMisc y z
  | b01 => exact encodesAs_decodeMove y z
  | b10 => exact encodesAs_decodeAlu y z
  | b11 => exact encodesAs_decodeBranch y z

/-- With its operand bytes filled in, an entry of the map encodes to its opcode byte and those bytes. -/
theorem EncodesAs.encode_eq {op : Byte} {t : Template} {operands : List Byte} {i : Instr}
    (h : EncodesAs op (some t)) (hreads : t.Reads operands i) :
    i.wellFormed = true ∧ encode i = op :: operands := by
  cases hreads with
  | f1 => cases h with | f1 hwf hbytes => exact ⟨hwf, hbytes⟩
  | f2 mk data => cases h with | f2 hwf hbytes => exact ⟨hwf data, hbytes data⟩
  | f3 mk lo hi =>
    cases h with
    | f3 hwf hbytes => exact ⟨hwf _, by rw [hbytes, encodeF3, loByte_wordOf, hiByte_wordOf]⟩

/-- Settles O2: the opcode byte's entry in the map encodes as it and the operand bytes taken. -/
theorem decodedBytesAreTheEncoding : Obligations.DecodedBytesAreTheEncoding := by
  intro bytes i rest h
  match bytes with
  | [] => simp [decode] at h
  | op :: tail =>
    obtain ⟨t, operands, hop, hreads, rfl⟩ := (decode_cons_eq_ok_iff op tail rest i).mp h
    obtain ⟨hwf, hbytes⟩ := (hop ▸ encodesAs_decodeOpcode op).encode_eq hreads
    exact ⟨hwf, by rw [hbytes, List.cons_append]⟩

/-! ## From the encoder to the opcode map -/

theorem decode_f1 {op : Byte} {i : Instr} {rest : List Byte} (h : decodeOpcode op = some (.f1 i)) :
    decode ([op] ++ rest) = .ok (i, rest) :=
  (decode_cons_eq_ok_iff op rest rest i).mpr ⟨_, _, h, .f1 i, rfl⟩

theorem decode_f2 {op data : Byte} {i : Byte → Instr} {rest : List Byte} (h : decodeOpcode op = some (.f2 i)) :
    decode ([op, data] ++ rest) = .ok (i data, rest) :=
  (decode_cons_eq_ok_iff op (data :: rest) rest _).mpr ⟨_, _, h, .f2 i data, rfl⟩

theorem decode_f3 {op : Byte} {w : Word} {i : Word → Instr} {rest : List Byte} (h : decodeOpcode op = some (.f3 i)) :
    decode (encodeF3 op w ++ rest) = .ok (i w, rest) := by
  have hreads := Template.Reads.f3 i (loByte w) (hiByte w)
  rw [wordOf_hiByte_loByte] at hreads
  exact (decode_cons_eq_ok_iff op (loByte w :: hiByte w :: rest) rest _).mpr ⟨_, _, h, hreads, rfl⟩

/-- Settles O1: format by format; where the opcode byte holds a register, a pair or a restart number, for each value of
that field. -/
theorem encodedInstructionDecodesToItself : Obligations.EncodedInstructionDecodesToItself := by
  intro i rest hwf
  cases i with
  | addR r | adcR r | subR r | sbbR r | anaR r | xraR r | oraR r | cmpR r | inrR r | dcrR r | movMR r | movRM r =>
    cases r with | _ => exact decode_f1 rfl
  | movRR rd rs => cases rd with | _ => cases rs with | _ => exact decode_f1 rfl
  | mviR r data => cases r with | _ => exact decode_f2 rfl
  | dad pp | inx pp | dcx pp => cases pp with | _ => exact decode_f1 rfl
  | lxi pp data => cases pp with | _ => exact decode_f3 rfl
  | popRp pp | pushRp pp =>
    cases pp with
    | sp => simp [Instr.wellFormed, RegPair.isStackPair] at hwf
    | _ => exact decode_f1 rfl
  | ldax pp | stax pp =>
    cases pp with
    | hl | sp => simp [Instr.wellFormed, RegPair.isIndirectPair] at hwf
    | _ => exact decode_f1 rfl
  | rst n => cases n using threeBits_cases with | _ => exact decode_f1 rfl
  | aci | adi | ani | cpi | ori | sbi | sui | xri | mviM | inPort | outPort => exact decode_f2 rfl
  | call | cc | cnc | cp | cm | cpe | cpo | cz | cnz | jmp | jc | jnc | jp | jm | jpe | jpo | jz | jnz | lda | lhld
  | shld | sta => exact decode_f3 rfl
  | _ => exact decode_f1 rfl

/-- The two directions as one: what decodes is exactly what encodes. -/
theorem decode_eq_ok_iff_encode (bytes rest : List Byte) (i : Instr) :
    decode bytes = .ok (i, rest) ↔ i.wellFormed = true ∧ bytes = encode i ++ rest := by
  constructor
  · exact decodedBytesAreTheEncoding bytes i rest
  · rintro ⟨hwf, rfl⟩
    exact encodedInstructionDecodesToItself i rest hwf

/-- Settles O5: each word is the encoding of its instruction, so it decodes by the round trip. -/
theorem wordsOfTheMapDecode : Obligations.WordsOfTheMapDecode := by
  have word (i : Instr) (hwf : i.wellFormed = true) : decode (encode i) = .ok (i, []) := by
    simpa using encodedInstructionDecodesToItself i [] hwf
  exact ⟨word (.inrR .d) rfl, word (.inrR .b) rfl, word .hlt rfl, word (.movMR .d) rfl, word (.movRR .h .e) rfl,
    word (.lda 0x1234#16) rfl, word (.lhld 0x1234#16) rfl, word (.jmp 0x2000#16) rfl, word (.outPort 0x10#8) rfl,
    word (.cpi 0x00#8) rfl, word .nop rfl, word (.movRR .a .a) rfl, word .popPsw rfl, word (.rst 7) rfl,
    word .xraM rfl, word (.dad .sp) rfl⟩

/-! ## Unassigned opcodes and lengths -/

/-- The holes of the opcode map (rule R107). -/
theorem decodeOpcode_eq_none_iff (op : Byte) : decodeOpcode op = none ↔ op ∈ Machine.unassignedOpcodes := by
  rw [← Option.isNone_iff_eq_none]
  revert op
  decide

/-- Settles O3: the decoder names the opcode byte exactly when the map has no entry for it. -/
theorem exactlyTenOpcodesHaveNoInstruction : Obligations.ExactlyTenOpcodesHaveNoInstruction := by
  intro op rest
  rw [decode_cons_eq_unassigned_iff, decodeOpcode_eq_none_iff]
  simp [Machine.unassignedOpcodes]

/-- The opcode bytes of rule R93's two-byte instructions. -/
def twoByteOpcodes : List Byte :=
  [0x06#8, 0x0E#8, 0x16#8, 0x1E#8, 0x26#8, 0x2E#8, 0x36#8, 0x3E#8, 0xC6#8, 0xCE#8, 0xD3#8, 0xD6#8, 0xDB#8, 0xDE#8,
    0xE6#8, 0xEE#8, 0xF6#8, 0xFE#8]

/-- The opcode bytes of rule R93's three-byte instructions. -/
def threeByteOpcodes : List Byte :=
  [0x01#8, 0x11#8, 0x21#8, 0x31#8, 0x22#8, 0x2A#8, 0x32#8, 0x3A#8, 0xC2#8, 0xC3#8, 0xC4#8, 0xCA#8, 0xCC#8, 0xCD#8,
    0xD2#8, 0xD4#8, 0xDA#8, 0xDC#8, 0xE2#8, 0xE4#8, 0xEA#8, 0xEC#8, 0xF2#8, 0xF4#8, 0xFA#8, 0xFC#8]

/-- The formats of the opcode map are those of the table. -/
theorem length_of_mem_decodeOpcode (op : Byte) : ∀ t ∈ decodeOpcode op,
    t.length = if op ∈ twoByteOpcodes then 2 else if op ∈ threeByteOpcodes then 3 else 1 := by
  revert op
  decide

/-- Settles O4: the bytes taken are the opcode byte and its template's operand bytes. -/
theorem opcodeByteFixesTheLength : Obligations.OpcodeByteFixesTheLength := by
  intro op rest rest' i h
  obtain ⟨t, operands, hop, hreads, rfl⟩ := (decode_cons_eq_ok_iff op rest rest' i).mp h
  have hbytes : (operands ++ rest').length + 1 = rest'.length + t.length := by
    rw [← hreads.length_eq, List.length_append]
    omega
  rw [hbytes, Nat.add_left_cancel_iff]
  exact length_of_mem_decodeOpcode op t hop

end Sys2Proof
end

section
/-!
PROOFS. Which steps are refused (60_exceptions.md rules R330, R341; 30_encoding.md rule R107), and the step that runs a
placed instruction (log 29).
-/

namespace Sys2Proof.Machine

/-! ## The step, by its kind (60_exceptions.md rule R330) -/

theorem step_of_resets {s : State} (h : s.resets) : step s = .next s.takeInput.applyReset := by
  have hreset : s.takeInput.now.resetIn = true := h
  simp only [step, hreset, if_true]

theorem step_of_enters {s : State} {src : Source} (h : s.enters src) : step s = s.pastBoundary.enter src := by
  obtain ⟨hreset, hselected⟩ := h
  have hreset' : s.takeInput.now.resetIn = false := hreset
  simp only [step, hreset', hselected, Bool.false_eq_true, if_false]
  rfl

theorem step_of_unassigned {s : State} {op : Byte} (hreset : (s.inputs.headD StepInput.quiet).resetIn = false)
    (hselected : s.takeInput.latchEdge.selected = none) (hrunning : s.ctl.halted = false)
    (hfetch : s.pastBoundary.fetch = .error op) : step s = .refused (.unassignedOpcode op) := by
  have hreset' : s.takeInput.now.resetIn = false := hreset
  have hrunning' : s.takeInput.latchEdge.endEiDelay.ctl.halted = false := hrunning
  have hfetch' : s.takeInput.latchEdge.endEiDelay.fetch = .error op := hfetch
  simp only [step, hreset', hselected, hrunning', hfetch', Bool.false_eq_true, if_false]

/-! ## INTR's answer (60_exceptions.md rule R341) -/

theorem intrTarget_eq_none_iff (bytes : List Byte) :
    intrTarget bytes = none ↔
      (¬ ∃ n, decode bytes = .ok (.rst n, [])) ∧ ¬ ∃ addr, decode bytes = .ok (.call addr, []) := by
  unfold intrTarget
  split <;> simp_all

/-- The restart number stands in bits 5:3 of the opcode byte (30_encoding.md rule R98). -/
theorem encode_rst (n : BitVec 3) : encode (.rst n) = [BitVec.ofNat 8 (0xC7 + 8 * n.toNat)] := by
  revert n
  decide

theorem decodes_to_rst_iff (bytes : List Byte) :
    (∃ n, decode bytes = .ok (.rst n, [])) ↔ ∃ n : Nat, n < 8 ∧ bytes = [BitVec.ofNat 8 (0xC7 + 8 * n)] := by
  constructor
  · rintro ⟨n, h⟩
    obtain ⟨-, rfl⟩ := (decode_eq_ok_iff_encode _ _ _).mp h
    exact ⟨n.toNat, n.isLt, by rw [List.append_nil, encode_rst]⟩
  · rintro ⟨n, hn, rfl⟩
    have hnumber : (BitVec.ofNat 3 n).toNat = n := Nat.mod_eq_of_lt hn
    refine ⟨BitVec.ofNat 3 n, (decode_eq_ok_iff_encode _ _ _).mpr ⟨rfl, ?_⟩⟩
    rw [List.append_nil, encode_rst, hnumber]

theorem decodes_to_call_iff (bytes : List Byte) :
    (∃ addr, decode bytes = .ok (.call addr, [])) ↔ ∃ lo hi : Byte, bytes = [0xCD#8, lo, hi] := by
  constructor
  · rintro ⟨addr, h⟩
    obtain ⟨-, rfl⟩ := (decode_eq_ok_iff_encode _ _ _).mp h
    exact ⟨loByte addr, hiByte addr, rfl⟩
  · rintro ⟨lo, hi, rfl⟩
    refine ⟨wordOf hi lo, (decode_eq_ok_iff_encode _ _ _).mpr ⟨rfl, ?_⟩⟩
    simp [encode, encodeF3]

/-- Only INTR's entry can be refused, by the bytes the device supplies. -/
theorem State.enter_eq_refused_iff (s : State) (src : Source) (r : Refusal) :
    s.enter src = .refused r ↔
      src = .intr ∧ intrTarget s.now.intrBytes = none ∧ r = .intrInstructionNotModelled := by
  by_cases hsrc : src = .intr
  · subst hsrc
    cases htarget : intrTarget s.now.intrBytes <;> simp [State.enter, State.entryAddress, htarget, eq_comm]
  · obtain ⟨t, ht⟩ := s.enter_completes src hsrc
    simp [ht, hsrc]

/-! ## Refused steps -/

theorem State.fetch_eq_ok_of_assigned (s : State) (h : s.fetchRead s.pc ∉ unassignedOpcodes) :
    ∃ i, s.fetch = .ok i := by
  cases hfetch : s.fetch with
  | ok i => exact ⟨i, rfl⟩
  | error op =>
    obtain ⟨rfl, hop⟩ := (s.fetch_eq_error_iff op).mp hfetch
    exact absurd ((decodeOpcode_eq_none_iff _).mp hop) h

theorem State.fetch_eq_error_of_unassigned (s : State) (h : s.fetchRead s.pc ∈ unassignedOpcodes) :
    s.fetch = .error (s.fetchRead s.pc) :=
  (s.fetch_eq_error_iff _).mpr ⟨rfl, (decodeOpcode_eq_none_iff _).mpr h⟩

/-- Settles O7: kind of step by kind. A reset, an idle step and an instruction complete; an entry is refused by the bytes
of INTR alone, a fetch by the opcode byte alone. -/
theorem stepRefusesOnlyWhatTheSpecRefuses : Obligations.StepRefusesOnlyWhatTheSpecRefuses := by
  intro s r input source op
  cases hreset : input.resetIn with
  | true => simp [step_of_resets hreset]
  | false =>
    cases hselected : source with
    | some src =>
      have hnow : s.pastBoundary.now = input := rfl
      rw [step_of_enters ⟨hreset, hselected⟩, State.enter_eq_refused_iff, intrTarget_eq_none_iff, decodes_to_rst_iff,
        decodes_to_call_iff, hnow]
      simp [and_assoc]
    | none =>
      cases hhalted : s.ctl.halted with
      | true => simp [haltedMachineIdles s hreset hselected hhalted]
      | false =>
        by_cases hop : op ∈ unassignedOpcodes
        · have hfetch : s.pastBoundary.fetch = .error op := s.pastBoundary.fetch_eq_error_of_unassigned hop
          rw [step_of_unassigned hreset hselected hhalted hfetch]
          simpa [hop] using eq_comm
        · obtain ⟨i, hfetch⟩ := s.pastBoundary.fetch_eq_ok_of_assigned hop
          rw [step_of_executes ⟨hreset, hselected, hhalted, hfetch⟩, exec_eq_next_afterExec]
          simp [hop]

/-! ## Placing an instruction (log 29) -/

/-- The record calmed for the fetch presents no reset and no line. -/
theorem silent_calmInputs (inputs : List StepInput) : ((calmInputs inputs).headD StepInput.quiet).Silent := by
  cases inputs with | _ => exact ⟨rfl, rfl⟩

theorem State.willFetch_iff (s : State) :
    s.willFetch = true ↔
      ((s.inputs.headD StepInput.quiet).resetIn = false ∧ s.takeInput.latchEdge.selected = none ∧
        s.ctl.halted = false) ∧
      kindAt s.memMap s.pc ≠ .empty ∧ kindAt s.memMap (s.pc + 1) ≠ .empty ∧ kindAt s.memMap (s.pc + 2) ≠ .empty := by
  simp [State.willFetch, and_assoc]

theorem State.readyToFetch_willFetch (s : State) : s.readyToFetch.willFetch = true := by
  unfold State.readyToFetch
  split
  case isTrue h => exact h
  case isFalse =>
    obtain ⟨hreset, hlines⟩ := silent_calmInputs s.inputs
    have hedge : ((calmInputs s.inputs).headD StepInput.quiet).lines.r75Edge = false := by rw [hlines]; rfl
    refine (State.willFetch_iff _).mpr ⟨⟨hreset, ?_, rfl⟩, by simp [kindAt]⟩
    exact State.selected_eq_none_of_quiet_lines _ hlines fun hlatch => absurd (hedge.symm.trans hlatch) nofun

theorem State.readyToFetch_frame (s : State) :
    s.readyToFetch.regs = s.regs ∧ s.readyToFetch.flags = s.flags ∧ s.readyToFetch.sp = s.sp ∧
      s.readyToFetch.pc = s.pc := by
  unfold State.readyToFetch
  split <;> exact ⟨rfl, rfl, rfl, rfl⟩

/-- Three bytes loaded stand at three addresses, also where they wrap (20_memory.md rule R71). -/
theorem State.load_three_read (s : State) (a : Word) (x y z : Byte) :
    (s.load a [x, y, z]).mem.read a.toNat = x ∧ (s.load a [x, y, z]).mem.read (a + 1).toNat = y ∧
      (s.load a [x, y, z]).mem.read (a + 2).toNat = z := by
  have hload : (s.load a [x, y, z]).mem =
      ((s.mem.write a.toNat x).write (a + 1).toNat y).write (a + 2).toNat z := by
    have htwo : a + 1 + 1 = a + 2 := by bv_omega
    rw [← htwo]
    rfl
  have h01 : a.toNat ≠ (a + 1).toNat := by bv_omega
  have h02 : a.toNat ≠ (a + 2).toNat := by bv_omega
  have h12 : (a + 1).toNat ≠ (a + 2).toNat := by bv_omega
  rw [hload, Memory.read_write_ne _ _ _ _ h02, Memory.read_write_ne _ _ _ _ h01, Memory.read_write_ne _ _ _ _ h12]
  exact ⟨Memory.read_write_same _ _ _, Memory.read_write_same _ _ _, Memory.read_write_same _ _ _⟩

/-- A state that will fetch executes what the contents of memory at its pc decode to. -/
theorem State.executes_of_willFetch {s : State} {i : Instr} {rest : List Byte} (h : s.willFetch = true)
    (hdecode : decode [s.mem.read s.pc.toNat, s.mem.read (s.pc + 1).toNat, s.mem.read (s.pc + 2).toNat]
      = .ok (i, rest)) : s.executes i := by
  obtain ⟨⟨hreset, hselected, hrunning⟩, h0, h1, h2⟩ := s.willFetch_iff.mp h
  refine ⟨hreset, hselected, hrunning, (State.fetch_eq_ok_iff _ i).mpr ⟨rest, ?_⟩⟩
  have hpc : s.pastBoundary.pc = s.pc := rfl
  rw [hpc, s.pastBoundary.fetchRead_of_not_empty _ h0, s.pastBoundary.fetchRead_of_not_empty _ h1,
    s.pastBoundary.fetchRead_of_not_empty _ h2]
  exact hdecode

theorem decode_tableBytes_of_decodeTableWord {nbits w : Nat} {i : Instr} (h : decodeTableWord nbits w = some i) :
    ∃ rest, decode (tableBytes nbits w) = .ok (i, rest) := by
  unfold decodeTableWord at h
  split at h
  case h_1 j rest hdecode =>
    obtain rfl := Option.some.inj h
    exact ⟨rest, hdecode⟩
  case h_2 => simp at h

/-- Loading changes contents alone, so the state fetches as before, and what it fetches is what was loaded. -/
theorem State.executes_of_load {s : State} {i : Instr} {nbits w : Nat} (h : s.willFetch = true)
    (hdecode : decodeTableWord nbits w = some i) : (s.load s.pc (tableBytes nbits w)).executes i := by
  obtain ⟨rest, hbytes⟩ := decode_tableBytes_of_decodeTableWord hdecode
  have hload : (s.load s.pc (tableBytes nbits w)).willFetch = true := h
  have hpc : (s.load s.pc (tableBytes nbits w)).pc = s.pc := rfl
  refine State.executes_of_willFetch (rest := rest) hload ?_
  rw [hpc, ← hbytes]
  unfold tableBytes
  obtain ⟨h0, h1, h2⟩ := s.load_three_read s.pc _ _ _
  rw [h0, h1, h2]

/-- Settles O8: the state past the boundary of the placed one. -/
theorem placedInstructionRunsNext : Obligations.PlacedInstructionRunsNext := by
  intro s nbits w i hdecode
  exact ⟨(s.withFetchWord nbits w).pastBoundary,
    step_of_executes (State.executes_of_load s.readyToFetch_willFetch hdecode), s.readyToFetch_frame⟩

end Sys2Proof.Machine
end

section
/-!
PROOFS. The arithmetic family in numbers (40_arithmetic.md): the flags as functions of the result read as a number
(00_scope.md rule R10), then sums and differences in A, increments and decrements, and DAD.
-/

namespace Sys2Proof.Machine

/-! ## S, Z and P of a byte -/

theorem getLsbD_toNat (r : Byte) (i : Nat) : (r.getLsbD i).toNat = r.toNat / 2 ^ i % 2 := by
  rw [BitVec.getLsbD, Nat.toNat_testBit]

theorem countP_range_succ (p : Nat → Bool) (n : Nat) :
    (List.range (n + 1)).countP p = (List.range n).countP p + (p n).toNat := by
  rw [List.range_succ, List.countP_append, List.countP_singleton]
  cases p n <;> rfl

theorem parity_eq_evenOnes (r : Byte) : parity r = evenOnes r.toNat := by
  have hcount : onesCount r = r.toNat / 2 ^ 0 % 2 + r.toNat / 2 ^ 1 % 2 + r.toNat / 2 ^ 2 % 2 + r.toNat / 2 ^ 3 % 2
      + r.toNat / 2 ^ 4 % 2 + r.toNat / 2 ^ 5 % 2 + r.toNat / 2 ^ 6 % 2 + r.toNat / 2 ^ 7 % 2 := by
    simp only [onesCount, countP_range_succ, getLsbD_toNat, List.range_zero, List.countP_nil, Nat.zero_add]
  rw [parity, hcount, pow_zero, Nat.div_one]
  rfl

theorem zero_eq_decide (r : Byte) : zero r = decide (r.toNat = 0) := by
  simp [zero, ← BitVec.toNat_inj]

theorem AluResult.flags_eq_flagsOf (x : AluResult) : x.flags = flagsOf x.r.toNat x.ac x.cy := by
  simp [AluResult.flags, flagsOf, zero_eq_decide, parity_eq_evenOnes]

theorem AluResult.flagsKeepCarry_eq_flagsOf (x : AluResult) (f : Flags) :
    x.flagsKeepCarry f = flagsOf x.r.toNat x.ac f.cy := by
  rw [AluResult.flagsKeepCarry, x.flags_eq_flagsOf]
  rfl

/-! ## Sums to A -/

theorem add8_flags (a x : Byte) (c : Bool) :
    (add8 a x c).flags =
      flagsOf ((a.toNat + x.toNat + c.toNat) % 256) (decide (16 ≤ a.toNat % 16 + x.toNat % 16 + c.toNat))
        (decide (256 ≤ a.toNat + x.toNat + c.toNat)) := by
  rw [AluResult.flags_eq_flagsOf, add8_r_toNat]
  rfl

/-- The state after a sum to A and `n` bytes (40_arithmetic.md rule R121). -/
theorem State.addToA_advance (s : State) (x : Byte) (c : Bool) (n : Nat) :
    (s.addToA x c).advance (BitVec.ofNat 16 n) =
      { s with
        regs := { s.regs with a := BitVec.ofNat 8 (s.regs.a.toNat + x.toNat + c.toNat) }
        flags := flagsOf ((s.regs.a.toNat + x.toNat + c.toNat) % 256)
          (decide (16 ≤ s.regs.a.toNat % 16 + x.toNat % 16 + c.toNat))
          (decide (256 ≤ s.regs.a.toNat + x.toNat + c.toNat))
        pc := s.following n } := by
  rw [← add8_flags, s.following_eq_add]
  rfl

/-- Settles O25: the six forms are `State.addToA` with their operand and carry in. -/
theorem additionsWriteTheSumAndAllFlags : Obligations.AdditionsWriteTheSumAndAllFlags := by
  intro s
  refine ⟨fun r => ?addR, ?addM, fun d => ?adi, fun r => ?adcR, ?adcM, fun d => ?aci⟩
  case addR | addM => exact congrArg _ (s.addToA_advance _ false 1)
  case adi => exact congrArg _ (s.addToA_advance d false 2)
  case adcR | adcM => exact congrArg _ (s.addToA_advance _ s.flags.cy 1)
  case aci => exact congrArg _ (s.addToA_advance d s.flags.cy 2)

/-! ## Differences to A -/

theorem sub8_r_eq_ofNat (a x : Byte) (c : Bool) :
    (sub8 a x c).r = BitVec.ofNat 8 (a.toNat + 512 - x.toNat - c.toNat) :=
  BitVec.eq_of_toNat_eq (by rw [sub8_r_toNat, BitVec.toNat_ofNat])

theorem sub8_flags (a x : Byte) (c : Bool) :
    (sub8 a x c).flags =
      flagsOf ((a.toNat + 512 - x.toNat - c.toNat) % 256) (decide (x.toNat % 16 + c.toNat ≤ a.toNat % 16))
        (decide (a.toNat < x.toNat + c.toNat)) := by
  rw [AluResult.flags_eq_flagsOf, sub8_r_toNat, sub8_ac, sub8_cy]

/-- The state after a difference to A and `n` bytes (40_arithmetic.md rule R135). -/
theorem State.subFromA_advance (s : State) (x : Byte) (c : Bool) (n : Nat) :
    (s.subFromA x c).advance (BitVec.ofNat 16 n) =
      { s with
        regs := { s.regs with a := BitVec.ofNat 8 (s.regs.a.toNat + 512 - x.toNat - c.toNat) }
        flags := flagsOf ((s.regs.a.toNat + 512 - x.toNat - c.toNat) % 256)
          (decide (x.toNat % 16 + c.toNat ≤ s.regs.a.toNat % 16)) (decide (s.regs.a.toNat < x.toNat + c.toNat))
        pc := s.following n } := by
  rw [← sub8_flags, ← sub8_r_eq_ofNat, s.following_eq_add]
  rfl

/-- Settles O26: the six forms are `State.subFromA` with their operand and borrow in. -/
theorem subtractionsWriteTheDifferenceAndAllFlags : Obligations.SubtractionsWriteTheDifferenceAndAllFlags := by
  intro s
  refine ⟨fun r => ?subR, ?subM, fun d => ?sui, fun r => ?sbbR, ?sbbM, fun d => ?sbi⟩
  case subR | subM => exact congrArg _ (s.subFromA_advance _ false 1)
  case sui => exact congrArg _ (s.subFromA_advance d false 2)
  case sbbR | sbbM => exact congrArg _ (s.subFromA_advance _ s.flags.cy 1)
  case sbi => exact congrArg _ (s.subFromA_advance d s.flags.cy 2)

/-! ## One more, one less -/

theorem toNat_one_byte : (0x01#8).toNat = 1 := rfl

theorem add8_one_ac (v : Byte) : (add8 v 0x01#8 false).ac = decide (v.toNat % 16 = 15) := by
  rw [add8_ac, toNat_one_byte, Bool.toNat_false, decide_eq_decide]
  omega

theorem sub8_one_r (v : Byte) : (sub8 v 0x01#8 false).r = BitVec.ofNat 8 (v.toNat + 255) := by
  apply BitVec.eq_of_toNat_eq
  rw [sub8_r_toNat, toNat_one_byte, Bool.toNat_false, BitVec.toNat_ofNat]
  omega

theorem sub8_one_ac (v : Byte) : (sub8 v 0x01#8 false).ac = decide (v.toNat % 16 ≠ 0) := by
  rw [sub8_ac, toNat_one_byte, Bool.toNat_false, decide_eq_decide]
  omega

theorem sub8_add8_one_r (v : Byte) : (sub8 (add8 v 0x01#8 false).r 0x01#8 false).r = v := by
  apply BitVec.eq_of_toNat_eq
  rw [sub8_r_toNat, add8_r_toNat, toNat_one_byte, Bool.toNat_false]
  omega

/-- INR's flags: the low nibble carries out exactly when it is 15 (40_arithmetic.md rule R132). -/
theorem State.incFlags_eq (s : State) (v : Byte) :
    (s.incFlags v).flags = flagsOf ((v.toNat + 1) % 256) (decide (v.toNat % 16 = 15)) s.flags.cy := by
  rw [State.incFlags_flags, AluResult.flagsKeepCarry_eq_flagsOf, add8_r_toNat, add8_one_ac]
  rfl

/-- DCR's flags: the low nibble borrows exactly when it is 0 (rule R129). -/
theorem State.decFlags_eq (s : State) (v : Byte) :
    (s.decFlags v).flags = flagsOf ((v.toNat + 255) % 256) (decide (v.toNat % 16 ≠ 0)) s.flags.cy := by
  rw [State.decFlags_flags, AluResult.flagsKeepCarry_eq_flagsOf, sub8_one_r, sub8_one_ac, BitVec.toNat_ofNat]

/-- Settles O28: the register by `add8` or `sub8` of 1, the flags by `State.incFlags_eq` and `State.decFlags_eq`. -/
theorem registerIncrementAndDecrement : Obligations.RegisterIncrementAndDecrement := by
  intro s r
  refine ⟨?inr, ?dcr⟩
  case inr =>
    rw [← s.incFlags_eq, s.following_eq_add]
    rfl
  case dcr =>
    rw [← s.decFlags_eq, s.following_eq_add, ← sub8_one_r]
    rfl

theorem State.memRead_memWrite (s : State) (a : Word) (v : Byte) :
    (s.memWrite a v).memRead a = s.byteAfterStore a v := by
  by_cases h : kindAt s.memMap a = .readWrite
  · rw [s.memRead_memWrite_same a v h, State.byteAfterStore, if_pos h]
  · rw [s.memWrite_of_not_readWrite a v h, State.byteAfterStore, if_neg h]

/-- Settles O29: a store to HL, the flags of INR or DCR, and the pc. -/
theorem memoryIncrementAndDecrement : Obligations.MemoryIncrementAndDecrement := by
  intro s
  refine ⟨⟨_, exec_eq_next_afterExec .inrM s, ?inr, s.memRead_memWrite _ _, fun a h => s.memRead_memWrite_ne _ _ _ h⟩,
    _, exec_eq_next_afterExec .dcrM s, ?dcr, ?dcrByte, fun a h => s.memRead_memWrite_ne _ _ _ h⟩
  case inr =>
    rw [← s.incFlags_eq, s.following_eq_add]
    rfl
  case dcr =>
    rw [← s.decFlags_eq, s.following_eq_add]
    rfl
  case dcrByte =>
    rw [← sub8_one_r]
    exact s.memRead_memWrite _ _

/-! ## Pairs -/

/-- Settles O30: one more and one less as sums of numbers; the encodings and the timing by the tables. -/
theorem pairIncrementAndDecrement : Obligations.PairIncrementAndDecrement := by
  have hinc (w : Word) : BitVec.ofNat 16 (w.toNat + 1) = w + 1 := by bv_omega
  have hdec (w : Word) : BitVec.ofNat 16 (w.toNat + 65535) = w - 1 := by bv_omega
  refine ⟨fun s pp => ⟨?inx, ?dcx⟩, rfl, rfl, fun pp taken => ⟨rfl, rfl⟩⟩
  case inx =>
    rw [hinc, s.following_eq_add]
    rfl
  case dcx =>
    rw [hdec, s.following_eq_add]
    rfl

theorem hiByte_ofNat (t : Nat) : hiByte (BitVec.ofNat 16 t) = BitVec.ofNat 8 (t / 256) := by
  apply BitVec.eq_of_toNat_eq
  rw [hiByte_toNat, BitVec.toNat_ofNat, BitVec.toNat_ofNat]
  omega

theorem loByte_ofNat (t : Nat) : loByte (BitVec.ofNat 16 t) = BitVec.ofNat 8 t := by
  apply BitVec.eq_of_toNat_eq
  rw [loByte_toNat, BitVec.toNat_ofNat, BitVec.toNat_ofNat]
  omega

theorem State.hl_toNat (s : State) : s.hl.toNat = 256 * s.regs.h.toNat + s.regs.l.toNat :=
  wordOf_toNat s.regs.h s.regs.l

/-- Settles O31: HL's two bytes of the 17-bit sum. -/
theorem dadAddsToHlAndWritesOnlyCarry : Obligations.DadAddsToHlAndWritesOnlyCarry := by
  intro s pp
  simp only [← s.hl_toNat, s.following_eq_add]
  rw [← hiByte_ofNat, ← loByte_ofNat]
  rfl

/-! ## An increment undone (95_test_vectors.md section 4, properties 9 and 10) -/

theorem State.advance_one_twice (s : State) : (s.advance 1).advance 1 = { s with pc := s.following 2 } := by
  have hpc : s.pc + 1 + 1 = s.following 2 := by rw [s.following_eq_add, BitVec.add_assoc]; rfl
  rw [← hpc]
  rfl

@[simp] theorem State.advance_getPair (s : State) (n : Word) (pp : RegPair) :
    (s.advance n).getPair pp = s.getPair pp := by
  cases pp <;> rfl

theorem State.setPair_setPair (s : State) (pp : RegPair) (v w : Word) :
    (s.setPair pp v).setPair pp w = s.setPair pp w := by
  cases pp <;> rfl

theorem Regs.set_set (g : Regs) (r : Reg) (v w : Byte) : (g.set r v).set r w = g.set r w := by
  cases r <;> rfl

theorem Regs.set_get (g : Regs) (r : Reg) : g.set r (g.get r) = g := by
  cases r <;> rfl

theorem State.dcx_inx (s : State) (pp : RegPair) :
    (s.afterExec (.inx pp)).afterExec (.dcx pp) = { s with pc := s.following 2 } := by
  have hpair : (s.afterExec (.inx pp)).getPair pp - 1 = s.getPair pp := by
    have hsum : (s.afterExec (.inx pp)).getPair pp = s.getPair pp + 1 :=
      (State.advance_getPair _ _ _).trans (State.getPair_setPair_same _ _ _)
    rw [hsum, BitVec.add_sub_cancel]
  calc (s.afterExec (.inx pp)).afterExec (.dcx pp)
      = (((s.setPair pp (s.getPair pp + 1)).setPair pp ((s.afterExec (.inx pp)).getPair pp - 1)).advance 1).advance 1 :=
        rfl
    _ = { s with pc := s.following 2 } := by
        rw [hpair, s.setPair_setPair, s.setPair_getPair, s.advance_one_twice]

theorem State.dcrR_inrR_regs (s : State) (r : Reg) : ((s.afterExec (.inrR r)).afterExec (.dcrR r)).regs = s.regs := by
  have hreg : (s.afterExec (.inrR r)).getReg r = (add8 (s.getReg r) 0x01#8 false).r := s.getReg_setReg_same r _
  calc ((s.afterExec (.inrR r)).afterExec (.dcrR r)).regs
      = (s.regs.set r _).set r (sub8 ((s.afterExec (.inrR r)).getReg r) 0x01#8 false).r := rfl
    _ = s.regs.set r (s.regs.get r) := by rw [hreg, sub8_add8_one_r, Regs.set_set]; rfl
    _ = s.regs := s.regs.set_get r

/-- Settles O54: the second instruction reads back what the first wrote and takes its 1 off again. -/
theorem incrementThenDecrementRestores : Obligations.IncrementThenDecrementRestores := by
  intro s
  refine ⟨fun pp => ⟨_, exec_eq_next_afterExec _ _, ?pair⟩,
    fun r => ⟨_, _, exec_eq_next_afterExec _ _, exec_eq_next_afterExec _ _, ?register, rfl⟩⟩
  case pair => rw [exec_eq_next_afterExec, s.dcx_inx]
  case register =>
    rw [← s.advance_one_twice, s.dcrR_inrR_regs]
    rfl

end Sys2Proof.Machine
end

section
/-!
PROOFS. DAA (40_arithmetic.md rule R127, decision D9): its correction in numbers for every input, and the decimal sum
it makes of the binary sum of two packed-BCD bytes (95_test_vectors.md section 4, property 15).
-/

namespace Sys2Proof.Machine

/-! ## The correction -/

/-- Whether DAA adds 6. -/
def daaLow (a : Byte) (ac : Bool) : Bool := decide (9 < a.toNat % 16) || ac

/-- Whether DAA adds 96, which is also the carry it leaves. -/
def daaHigh (a : Byte) (cy : Bool) : Bool :=
  decide (9 < a.toNat / 16) || cy || (decide (9 ≤ a.toNat / 16) && decide (9 < a.toNat % 16))

/-- What DAA adds. -/
def daaAmount (a : Byte) (ac cy : Bool) : Nat :=
  (if daaLow a ac then 6 else 0) + (if daaHigh a cy then 96 else 0)

theorem daaCorrection_eq (a : Byte) (ac cy : Bool) :
    daaCorrection a ac cy = (BitVec.ofNat 8 (daaAmount a ac cy), daaHigh a cy) := by
  have hlow : (lowNibble a > 9 ∨ ac = true) ↔ daaLow a ac = true := by simp [daaLow, lowNibble]
  have hhigh : (highNibble a > 9 ∨ cy = true ∨ (highNibble a ≥ 9 ∧ lowNibble a > 9)) ↔ daaHigh a cy = true := by
    simp [daaHigh, lowNibble, highNibble, or_assoc]
  have hcy : daaHigh a cy = false → cy = false := by cases cy <;> simp [daaHigh]
  simp only [daaCorrection, daaAmount, hlow, hhigh]
  cases hh : daaHigh a cy with
  | true => cases daaLow a ac <;> rfl
  | false => cases daaLow a ac <;> rw [hcy hh] <;> rfl

theorem daaAmount_lt (a : Byte) (ac cy : Bool) : daaAmount a ac cy < 256 := by
  unfold daaAmount
  split <;> split <;> decide

theorem daaAmount_mod_16 (a : Byte) (ac cy : Bool) : daaAmount a ac cy % 16 = if daaLow a ac then 6 else 0 := by
  unfold daaAmount
  split <;> split <;> rfl

theorem daaCorrection_fst_toNat (a : Byte) (ac cy : Bool) : (daaCorrection a ac cy).1.toNat = daaAmount a ac cy := by
  rw [daaCorrection_eq, BitVec.toNat_ofNat, Nat.mod_eq_of_lt (daaAmount_lt a ac cy)]

/-- The correction carries out of the low nibble exactly when that nibble is no decimal digit. -/
theorem add8_daaCorrection_ac (a : Byte) (ac cy : Bool) :
    (add8 a (daaCorrection a ac cy).1 false).ac = decide (9 < a.toNat % 16) := by
  rw [add8_ac, daaCorrection_fst_toNat, daaAmount_mod_16, decide_eq_decide, Bool.toNat_false]
  have hdigit : daaLow a ac = false → ¬ 9 < a.toNat % 16 := by
    rw [daaLow, Bool.or_eq_false_iff, decide_eq_false_iff_not]
    exact And.left
  split
  case isTrue => omega
  case isFalse hlow =>
    have := hdigit (Bool.eq_false_of_not_eq_true hlow)
    omega

/-- The flags of the correcting addition, its own carry replaced (rule R127). -/
theorem daa_flags (a : Byte) (ac cy : Bool) :
    { (add8 a (daaCorrection a ac cy).1 false).flags with cy := (daaCorrection a ac cy).2 } =
      flagsOf ((a.toNat + daaAmount a ac cy) % 256) (decide (9 < a.toNat % 16)) (daaHigh a cy) := by
  rw [AluResult.flags_eq_flagsOf, add8_daaCorrection_ac, add8_r_toNat, daaCorrection_fst_toNat, daaCorrection_eq]
  rfl

/-- The state after DAA, for every input. -/
theorem State.afterExec_daa (s : State) :
    s.afterExec .daa =
      { s with
        regs := { s.regs with
          a := BitVec.ofNat 8 (s.regs.a.toNat + daaAmount s.regs.a s.flags.ac s.flags.cy) }
        flags := flagsOf ((s.regs.a.toNat + daaAmount s.regs.a s.flags.ac s.flags.cy) % 256)
          (decide (9 < s.regs.a.toNat % 16)) (daaHigh s.regs.a s.flags.cy)
        pc := s.following 1 } := by
  rw [← daa_flags, ← daaCorrection_fst_toNat, s.following_eq_add]
  rfl

/-- Settles O32: `State.afterExec_daa`, its two amounts added one after the other. -/
theorem daaCorrectsEveryInput : Obligations.DaaCorrectsEveryInput := by
  intro s
  simp only [Nat.add_assoc]
  exact (exec_eq_next_afterExec .daa s).trans (congrArg _ s.afterExec_daa)

/-! ## After a sum of packed-BCD bytes -/

theorem isBcd_iff (v : Byte) : isBcd v = true ↔ v.toNat / 16 ≤ 9 ∧ v.toNat % 16 ≤ 9 := by
  simp [isBcd]

/-- Digits of at most 18 and a low sum of at most 19, corrected by 6 for a decimal carry out of the low digit and by 96
for one out of the high digit, are the two digits of their number modulo 100. -/
theorem corrected_digits {h l : Nat} (hh : h ≤ 18) (hl : l ≤ 19) :
    ((16 * h + l) % 256 + ((if 10 ≤ l then 6 else 0) + if 100 ≤ 10 * h + l then 96 else 0)) % 256 =
      16 * ((10 * h + l) % 100 / 10) + (10 * h + l) % 10 := by
  have hunits : (10 * h + l) % 10 = if 10 ≤ l then l - 10 else l := by split <;> omega
  have htens : (10 * h + l) % 100 / 10 =
      (if 10 ≤ l then h + 1 else h) - if 100 ≤ 10 * h + l then 10 else 0 := by split <;> split <;> omega
  rw [hunits, htens]
  split <;> split <;> omega

theorem bcdValue_le {v : Byte} (h : isBcd v = true) : bcdValue v ≤ 99 := by
  rw [isBcd_iff] at h
  unfold bcdValue
  omega

/-- A byte of the two decimal digits of a sum below 200, with the decimal carry, stands for the sum. -/
theorem bcd_of_digits {v : Byte} {n : Nat} (hn : n < 200) (hv : v.toNat = 16 * (n % 100 / 10) + n % 10) :
    isBcd v = true ∧ bcdValue v + 100 * (decide (100 ≤ n)).toNat = n := by
  have hcarry : (decide (100 ≤ n)).toNat = n / 100 := by
    by_cases h : 100 ≤ n
    · rw [decide_eq_true h, Bool.toNat_true]
      omega
    · rw [decide_eq_false h, Bool.toNat_false]
      omega
  rw [isBcd_iff, bcdValue, hcarry]
  omega

section BcdSum

variable {a x : Byte} {c : Bool} (ha : isBcd a = true) (hx : isBcd x = true)
include ha hx

/-- DAA corrects the low digit exactly when the low digits make a decimal carry. -/
theorem daaLow_add8 :
    daaLow (add8 a x c).r (add8 a x c).ac = decide (10 ≤ a.toNat % 16 + x.toNat % 16 + c.toNat) := by
  obtain ⟨-, haLow⟩ := (isBcd_iff a).mp ha
  obtain ⟨-, hxLow⟩ := (isBcd_iff x).mp hx
  have hc : c.toNat ≤ 1 := Bool.toNat_le c
  rw [daaLow, add8_r_toNat, add8_ac, ← Bool.decide_or, decide_eq_decide]
  omega

/-- DAA corrects the high digit exactly when the decimal sum is at least 100. -/
theorem daaHigh_add8 :
    daaHigh (add8 a x c).r (add8 a x c).cy = decide (100 ≤ bcdValue a + bcdValue x + c.toNat) := by
  obtain ⟨haHigh, haLow⟩ := (isBcd_iff a).mp ha
  obtain ⟨hxHigh, hxLow⟩ := (isBcd_iff x).mp hx
  have hc : c.toNat ≤ 1 := Bool.toNat_le c
  rw [daaHigh, add8_r_toNat, add8_cy, ← Bool.decide_and, ← Bool.decide_or, ← Bool.decide_or, decide_eq_decide]
  unfold bcdValue
  omega

/-- The corrected sum holds the two decimal digits of the sum modulo 100. -/
theorem daa_add8_digits :
    ((add8 a x c).r.toNat + daaAmount (add8 a x c).r (add8 a x c).ac (add8 a x c).cy) % 256 =
      16 * ((bcdValue a + bcdValue x + c.toNat) % 100 / 10) + (bcdValue a + bcdValue x + c.toNat) % 10 := by
  have hlow := daaLow_add8 (c := c) ha hx
  have hhigh := daaHigh_add8 (c := c) ha hx
  obtain ⟨haHigh, haLow⟩ := (isBcd_iff a).mp ha
  obtain ⟨hxHigh, hxLow⟩ := (isBcd_iff x).mp hx
  have hc : c.toNat ≤ 1 := Bool.toNat_le c
  have hdecimal : bcdValue a + bcdValue x + c.toNat =
      10 * (a.toNat / 16 + x.toNat / 16) + (a.toNat % 16 + x.toNat % 16 + c.toNat) := by
    unfold bcdValue
    omega
  have hbinary : a.toNat + x.toNat + c.toNat =
      16 * (a.toNat / 16 + x.toNat / 16) + (a.toNat % 16 + x.toNat % 16 + c.toNat) := by
    omega
  simp only [daaAmount, hlow, hhigh, add8_r_toNat, decide_eq_true_eq]
  rw [hdecimal, hbinary]
  exact corrected_digits (by omega) (by omega)

end BcdSum

/-- DAA after a sum of packed-BCD bytes (property 15). -/
theorem State.daa_after_addToA {s u : State} {x : Byte} {c : Bool} {n : Word}
    (ha : isBcd s.regs.a = true) (hx : isBcd x = true) (hu : u = ((s.addToA x c).advance n).afterExec .daa) :
    isBcd u.regs.a = true ∧ bcdValue u.regs.a + 100 * u.flags.cy.toNat = bcdValue s.regs.a + bcdValue x + c.toNat := by
  rw [State.afterExec_daa] at hu
  have hcy : u.flags.cy = decide (100 ≤ bcdValue s.regs.a + bcdValue x + c.toNat) := by
    rw [hu]
    exact daaHigh_add8 ha hx
  have hdigits : u.regs.a.toNat = 16 * ((bcdValue s.regs.a + bcdValue x + c.toNat) % 100 / 10)
      + (bcdValue s.regs.a + bcdValue x + c.toNat) % 10 := by
    rw [hu, ← daa_add8_digits ha hx]
    exact BitVec.toNat_ofNat _ _
  have hsum : bcdValue s.regs.a + bcdValue x + c.toNat < 200 := by
    have := bcdValue_le ha
    have := bcdValue_le hx
    have := Bool.toNat_le c
    omega
  rw [hcy]
  exact bcd_of_digits hsum hdigits

/-- Settles O33: the six forms are `State.addToA` with their operand and carry in. -/
theorem daaAfterAdditionGivesTheDecimalSum : Obligations.DaaAfterAdditionGivesTheDecimalSum := by
  intro s
  refine ⟨fun r ha hx => ⟨_, _, rfl, rfl, ?addR⟩, fun ha hx => ⟨_, _, rfl, rfl, ?addM⟩,
    fun d ha hx => ⟨_, _, rfl, rfl, ?adi⟩, fun r ha hx => ⟨_, _, rfl, rfl, ?adcR⟩,
    fun ha hx => ⟨_, _, rfl, rfl, ?adcM⟩, fun d ha hx => ⟨_, _, rfl, rfl, ?aci⟩⟩
  case addR | addM | adi => exact State.daa_after_addToA (c := false) ha hx rfl
  case adcR | adcM | aci => exact State.daa_after_addToA (c := s.flags.cy) ha hx rfl

end Sys2Proof.Machine
end

section
/-!
PROOFS. The logical, compare, rotate and carry family (41_logical.md): its shared operations as updates of the whole
state, compares in numbers, bitwise results and rotates bit by bit.
-/

namespace Sys2Proof.Machine

/-! ## Compares -/

/-- The flags of a difference without a borrow in: Z and CY are the unsigned comparison (41_logical.md rule R166). -/
theorem sub8_flags_eq_comparison (a x : Byte) :
    (sub8 a x false).flags =
      { s := decide (128 ≤ (a.toNat + 256 - x.toNat) % 256)
        z := decide (a.toNat = x.toNat)
        ac := decide (x.toNat % 16 ≤ a.toNat % 16)
        p := evenOnes ((a.toNat + 256 - x.toNat) % 256)
        cy := decide (a.toNat < x.toNat) } := by
  have ha := a.isLt
  have hx := x.isLt
  have hdifference : (a.toNat + 512 - x.toNat - 0) % 256 = (a.toNat + 256 - x.toNat) % 256 := by omega
  have hequal : (a.toNat + 256 - x.toNat) % 256 = 0 ↔ a.toNat = x.toNat := by omega
  rw [sub8_flags, Bool.toNat_false, hdifference, flagsOf, decide_eq_decide.mpr hequal]
  rfl

/-- The state after a compare and `n` bytes: the flags and the pc (rule R160). -/
theorem State.compareA_advance (s : State) (x : Byte) (n : Nat) :
    (s.compareA x).advance (BitVec.ofNat 16 n) =
      { s with
        flags :=
          { s := decide (128 ≤ (s.regs.a.toNat + 256 - x.toNat) % 256)
            z := decide (s.regs.a.toNat = x.toNat)
            ac := decide (x.toNat % 16 ≤ s.regs.a.toNat % 16)
            p := evenOnes ((s.regs.a.toNat + 256 - x.toNat) % 256)
            cy := decide (s.regs.a.toNat < x.toNat) }
        pc := s.following n } := by
  rw [← sub8_flags_eq_comparison, s.following_eq_add]
  rfl

/-- Settles O27: the three forms are `State.compareA` with their operand. -/
theorem comparesWriteTheFlagsAlone : Obligations.ComparesWriteTheFlagsAlone := by
  intro s
  refine ⟨fun r => ?cmpR, ?cmpM, fun d => ?cpi⟩
  case cmpR | cmpM => exact congrArg Host.Outcome.next (s.compareA_advance _ 1)
  case cpi => exact congrArg Host.Outcome.next (s.compareA_advance d 2)

/-! ## Bitwise operations -/

theorem logicFlags_eq_flagsOf (v : Byte) (ac : Bool) : logicFlags v ac = flagsOf v.toNat ac false := by
  rw [logicFlags, sign_eq, zero_eq_decide, parity_eq_evenOnes]
  rfl

/-- The state after a bitwise result to A and `n` bytes (rule R160). -/
theorem State.logicToA_advance (s : State) (v : Byte) (ac : Bool) (n : Nat) :
    (s.logicToA v ac).advance (BitVec.ofNat 16 n) =
      { s with regs := { s.regs with a := v }, flags := flagsOf v.toNat ac false, pc := s.following n } := by
  rw [← logicFlags_eq_flagsOf, s.following_eq_add]
  rfl

/-- Settles O34: the nine forms are `State.logicToA` with a result that has no carry between positions. -/
theorem bitwiseOperationsActOnEachBit : Obligations.BitwiseOperationsActOnEachBit := by
  intro s
  refine ⟨fun r => ⟨_, fun k _ => BitVec.getLsbD_and, ?anaR⟩, ⟨_, fun k _ => BitVec.getLsbD_and, ?anaM⟩,
    fun d => ⟨_, fun k _ => BitVec.getLsbD_and, ?ani⟩,
    fun r => ⟨_, fun k _ => BitVec.getLsbD_or, ?oraR⟩, ⟨_, fun k _ => BitVec.getLsbD_or, ?oraM⟩,
    fun d => ⟨_, fun k _ => BitVec.getLsbD_or, ?ori⟩,
    fun r => ⟨_, fun k _ => BitVec.getLsbD_xor, ?xraR⟩, ⟨_, fun k _ => BitVec.getLsbD_xor, ?xraM⟩,
    fun d => ⟨_, fun k _ => BitVec.getLsbD_xor, ?xri⟩⟩
  case anaR | anaM => exact congrArg Host.Outcome.next (s.logicToA_advance _ true 1)
  case ani => exact congrArg Host.Outcome.next (s.logicToA_advance _ true 2)
  case oraR | oraM | xraR | xraM => exact congrArg Host.Outcome.next (s.logicToA_advance _ false 1)
  case ori | xri => exact congrArg Host.Outcome.next (s.logicToA_advance _ false 2)

/-! ## Complement and carry -/

theorem ofNat_sub_eq_not (a : Byte) : BitVec.ofNat 8 (255 - a.toNat) = ~~~a := by
  apply BitVec.eq_of_toNat_eq
  rw [BitVec.toNat_ofNat, BitVec.toNat_not]
  omega

/-- Settles O35: the complement of A as 255 less A; the encodings and the timing by the tables. -/
theorem complementAndCarryInstructions : Obligations.ComplementAndCarryInstructions := by
  refine ⟨fun s => ?effects, rfl, rfl, rfl, fun taken => ⟨rfl, rfl, rfl⟩⟩
  rw [ofNat_sub_eq_not, s.following_eq_add]
  exact ⟨rfl, rfl, rfl⟩

/-! ## Rotates -/

/-- Seven bits moved up by one position above the bit `b`. -/
theorem getLsbD_rotatedLeft (a : Byte) (b : Bool) (k : Nat) (hk : k < 8) :
    (a.extractLsb' 0 7 ++ BitVec.ofBool b).getLsbD k = if k = 0 then b else a.getLsbD (k - 1) := by
  rw [BitVec.getLsbD_append]
  by_cases h : k = 0
  · simp [h]
  · have hhigh : k - 1 < 7 := by omega
    simp [h, hhigh]

/-- Seven bits moved down by one position below the bit `b`. -/
theorem getLsbD_rotatedRight (a : Byte) (b : Bool) (k : Nat) (hk : k < 8) :
    (BitVec.ofBool b ++ a.extractLsb' 1 7).getLsbD k = if k = 7 then b else a.getLsbD (k + 1) := by
  rw [BitVec.getLsbD_append]
  by_cases h : k = 7
  · simp [h]
  · have hlow : k < 7 := by omega
    simp [h, hlow, Nat.add_comm]

/-- Left around the byte's own end: bit 7 is what comes in at bit 0. -/
theorem getLsbD_rotatedLeft_circular (a : Byte) (k : Nat) (hk : k < 8) :
    (a.extractLsb' 0 7 ++ BitVec.ofBool (a.getLsbD 7)).getLsbD k = a.getLsbD ((k + 7) % 8) := by
  rw [getLsbD_rotatedLeft a _ k hk]
  split
  case isTrue h => rw [h]
  case isFalse h => rw [show (k + 7) % 8 = k - 1 by omega]

/-- Right around the byte's own end: bit 0 is what comes in at bit 7. -/
theorem getLsbD_rotatedRight_circular (a : Byte) (k : Nat) (hk : k < 8) :
    (BitVec.ofBool (a.getLsbD 0) ++ a.extractLsb' 1 7).getLsbD k = a.getLsbD ((k + 1) % 8) := by
  rw [getLsbD_rotatedRight a _ k hk]
  split
  case isTrue h => rw [h]
  case isFalse h => rw [show (k + 1) % 8 = k + 1 by omega]

/-- The state after a rotate: A, CY and the pc (rule R160). -/
theorem State.rotateA_advance (s : State) (v : Byte) (cy : Bool) :
    (s.rotateA v cy).advance 1 =
      { s with regs := { s.regs with a := v }, flags := { s.flags with cy := cy }, pc := s.following 1 } := by
  rw [s.following_eq_add]
  rfl

/-- Settles O36: each rotate is `State.rotateA` with a byte known bit by bit; the encodings and the timing by the
tables. -/
theorem rotatesMoveAByOneBit : Obligations.RotatesMoveAByOneBit := by
  refine ⟨fun s => ?effects, rfl, rfl, rfl, rfl, fun taken => ⟨rfl, rfl, rfl, rfl⟩⟩
  exact ⟨⟨_, getLsbD_rotatedLeft _ _, congrArg Host.Outcome.next (s.rotateA_advance _ _)⟩,
    ⟨_, getLsbD_rotatedRight _ _, congrArg Host.Outcome.next (s.rotateA_advance _ _)⟩,
    ⟨_, getLsbD_rotatedLeft_circular _, congrArg Host.Outcome.next (s.rotateA_advance _ _)⟩,
    ⟨_, getLsbD_rotatedRight_circular _, congrArg Host.Outcome.next (s.rotateA_advance _ _)⟩⟩

end Sys2Proof.Machine
end

section
/-!
PROOFS. The branch family (42_branch.md): what a push leaves for later reads, whatever is behind the stack; jumps, calls
and returns as updates of the whole state, taken or not; and the return that undoes a call.
-/

namespace Sys2Proof.Machine

/-! ## Words as numbers -/

theorem wordOf_eq_ofNat (hi lo : Byte) : wordOf hi lo = BitVec.ofNat 16 (256 * hi.toNat + lo.toNat) := by
  rw [← wordOf_toNat, BitVec.ofNat_toNat, BitVec.setWidth_eq]

theorem hiByte_eq_ofNat (w : Word) : hiByte w = BitVec.ofNat 8 (w.toNat / 256) := by
  rw [← hiByte_ofNat, BitVec.ofNat_toNat, BitVec.setWidth_eq]

theorem loByte_eq_ofNat (w : Word) : loByte w = BitVec.ofNat 8 (w.toNat % 256) := by
  rw [← loByte_toNat, BitVec.ofNat_toNat, BitVec.setWidth_eq]

theorem State.advance_eq_following (s : State) (n : Nat) :
    s.advance (BitVec.ofNat 16 n) = { s with pc := s.following n } := by
  rw [s.following_eq_add]
  rfl

/-! ## Jumps -/

/-- A conditional jump writes the pc alone, taken or not (rule R200). -/
theorem State.jumpIf_eq (s : State) (cond : Cond) (target : Word) :
    s.jumpIf cond target = { s with pc := if s.flags.holds cond then target else s.following 3 } := by
  cases h : s.flags.holds cond with
  | true => exact s.jumpIf_taken cond target h
  | false => exact (s.jumpIf_not_taken cond target h).trans (s.advance_eq_following 3)

/-- Settles O37: the eight conditions of `State.jumpIf_eq`; PCHL's target as a number. -/
theorem jumpsGoWhereTheirConditionSays : Obligations.JumpsGoWhereTheirConditionSays := by
  intro s addr
  have hjump (cond : Cond) := congrArg (Host.Outcome.next (φ := Fault) (ρ := Refusal)) (s.jumpIf_eq cond addr)
  refine ⟨rfl, hjump .c, hjump .nc, hjump .p, hjump .m, hjump .pe, hjump .po, hjump .z, hjump .nz, ?pchl⟩
  case pchl =>
    rw [← wordOf_eq_ofNat]
    rfl

/-! ## The stack -/

/-- A write leaves a store to another address the outcome it had. -/
theorem State.byteAfterStore_memWrite_ne (s : State) {a b : Word} (v w : Byte) (h : b ≠ a) :
    (s.memWrite a v).byteAfterStore b w = s.byteAfterStore b w := by
  rw [State.byteAfterStore, s.memRead_memWrite_ne a b v h]
  rfl

/-- The two bytes of a push lie at different addresses, also where SP wraps (20_memory.md rule R66). -/
theorem sub_one_ne_sub_two (w : Word) : w - 1 ≠ w - 2 := by bv_omega

theorem State.push16_memRead_sub_one (s : State) (v : Word) :
    (s.push16 v).memRead (s.sp - 1) = s.byteAfterStore (s.sp - 1) (hiByte v) :=
  (State.memRead_memWrite_ne _ _ _ _ (sub_one_ne_sub_two s.sp)).trans (s.memRead_memWrite _ _)

theorem State.push16_memRead_sub_two (s : State) (v : Word) :
    (s.push16 v).memRead (s.sp - 2) = s.byteAfterStore (s.sp - 2) (loByte v) :=
  (State.memRead_memWrite _ _ _).trans (s.byteAfterStore_memWrite_ne _ _ (sub_one_ne_sub_two s.sp).symm)

/-- A word pushed to read-write memory is on top of the stack (20_memory.md rules R66, R67). -/
theorem State.push16_stackTop (s : State) (v : Word) (hhigh : kindAt s.memMap (s.sp - 1) = .readWrite)
    (hlow : kindAt s.memMap (s.sp - 2) = .readWrite) : (s.push16 v).stackTop = v := by
  have haddr : s.sp - 2 + 1 = s.sp - 1 := by bv_omega
  rw [State.stackTop, State.push16_sp, haddr, s.push16_memRead_high v hhigh, s.push16_memRead_low v hlow,
    wordOf_hiByte_loByte]

/-! ## Calls -/

/-- What a taken call of `n` bytes to `target` makes of `s` (rules R200, R201): `t`, with the address of the next
instruction pushed. -/
def State.CallsInto (s t : State) (n : Nat) (target : Word) : Prop :=
  { t with mem := s.mem } = { s with sp := s.sp - 2, pc := target } ∧
  t.memRead (s.sp - 1) = s.byteAfterStore (s.sp - 1) (BitVec.ofNat 8 ((s.following n).toNat / 256)) ∧
  t.memRead (s.sp - 2) = s.byteAfterStore (s.sp - 2) (BitVec.ofNat 8 ((s.following n).toNat % 256)) ∧
  ∀ a : Word, a ≠ s.sp - 1 → a ≠ s.sp - 2 → t.memRead a = s.memRead a

theorem State.callsInto_callTo (s : State) (n : Nat) (target : Word) :
    s.CallsInto (s.callTo (BitVec.ofNat 16 n) target) n target := by
  refine ⟨rfl, ?high, ?low, s.push16_memRead_ne _⟩
  case high =>
    rw [← hiByte_eq_ofNat, s.following_eq_add]
    exact s.push16_memRead_sub_one _
  case low =>
    rw [← loByte_eq_ofNat, s.following_eq_add]
    exact s.push16_memRead_sub_two _

/-- A conditional call is a call of three bytes, or goes on at the next instruction (rules R200, R202). -/
theorem State.callIf_calls_or_goes_on (s : State) (cond : Cond) (target : Word) :
    if s.flags.holds cond = true then s.CallsInto (s.callIf cond target) 3 target
    else s.callIf cond target = { s with pc := s.following 3 } := by
  split
  case isTrue h =>
    rw [s.callIf_taken cond target h]
    exact s.callsInto_callTo 3 target
  case isFalse h =>
    rw [s.callIf_not_taken cond target (Bool.eq_false_of_not_eq_true h)]
    exact s.advance_eq_following 3

/-- Settles O38: CALL and RST n are `State.callTo`, the conditional calls `State.callIf`. -/
theorem callsPushTheReturnAddress : Obligations.CallsPushTheReturnAddress := by
  intro s addr
  have hcall (cond : Cond) := s.callIf_calls_or_goes_on cond addr
  exact ⟨⟨_, rfl, s.callsInto_callTo 3 addr⟩,
    ⟨_, rfl, hcall .c⟩, ⟨_, rfl, hcall .nc⟩, ⟨_, rfl, hcall .p⟩, ⟨_, rfl, hcall .m⟩,
    ⟨_, rfl, hcall .pe⟩, ⟨_, rfl, hcall .po⟩, ⟨_, rfl, hcall .z⟩, ⟨_, rfl, hcall .nz⟩,
    fun n => ⟨_, rfl, s.callsInto_callTo 1 (restartAddress n)⟩⟩

/-! ## Returns -/

/-- A return loads the pc and raises SP (rule R220). -/
theorem State.ret_eq (s : State) :
    s.ret = { s with
      sp := s.sp + 2
      pc := BitVec.ofNat 16 (256 * (s.memRead (s.sp + 1)).toNat + (s.memRead s.sp).toNat) } := by
  rw [← wordOf_eq_ofNat]
  rfl

/-- A conditional return writes SP and the pc alone, taken or not (rules R200, R221). -/
theorem State.retIf_eq (s : State) (cond : Cond) :
    s.retIf cond = { s with
      sp := if s.flags.holds cond then s.sp + 2 else s.sp
      pc :=
        if s.flags.holds cond then
          BitVec.ofNat 16 (256 * (s.memRead (s.sp + 1)).toNat + (s.memRead s.sp).toNat)
        else s.following 1 } := by
  cases h : s.flags.holds cond with
  | true => exact (s.retIf_taken cond h).trans s.ret_eq
  | false => exact (s.retIf_not_taken cond h).trans (s.advance_eq_following 1)

/-- Settles O39: RET is `State.ret_eq`, the others the eight conditions of `State.retIf_eq`. -/
theorem returnsPopThePc : Obligations.ReturnsPopThePc := by
  intro s
  have hret (cond : Cond) := congrArg (Host.Outcome.next (φ := Fault) (ρ := Refusal)) (s.retIf_eq cond)
  exact ⟨congrArg Host.Outcome.next s.ret_eq, hret .c, hret .nc, hret .p, hret .m, hret .pe, hret .po, hret .z,
    hret .nz⟩

/-! ## A call undone (95_test_vectors.md section 4, property 11) -/

/-- The return pops the pushed address, and SP comes back. -/
theorem State.ret_callTo (s : State) (n target : Word) (hhigh : kindAt s.memMap (s.sp - 1) = .readWrite)
    (hlow : kindAt s.memMap (s.sp - 2) = .readWrite) :
    { (s.callTo n target).ret with mem := s.mem } = { s with pc := s.pc + n } := by
  have hpc : (s.callTo n target).stackTop = s.pc + n := s.push16_stackTop _ hhigh hlow
  have hsp : s.sp - 2 + 2 = s.sp := BitVec.sub_add_cancel s.sp 2
  calc { (s.callTo n target).ret with mem := s.mem }
      = { s with sp := s.sp - 2 + 2, pc := (s.callTo n target).stackTop } := rfl
    _ = { s with pc := s.pc + n } := by rw [hpc, hsp]

/-- Settles O40: `State.ret_callTo` for the three bytes of CALL. -/
theorem callThenReturnComesBack : Obligations.CallThenReturnComesBack := by
  intro s addr hhigh hlow
  refine ⟨_, _, rfl, rfl, ?_⟩
  rw [s.following_eq_add]
  exact s.ret_callTo 3 addr hhigh hlow

end Sys2Proof.Machine
end

section
/-!
PROOFS. The machine control and input/output family (43_machine_control_io.md): the bytes the environment gives RIM and
IN, RIM's word bit by bit, and SIM's control state part by part, each under its own enable bit.
-/

namespace Sys2Proof.Machine

/-! ## Control flip-flops -/

/-- The state after an instruction of one byte that writes the control state alone (rules R250 to R252, R257). -/
theorem State.setCtl_advance (s : State) (c : Control) :
    (s.setCtl c).advance 1 = { s with ctl := c, pc := s.following 1 } :=
  (s.setCtl c).advance_eq_following 1

/-- Settles O41: DI, EI and HLT are `State.setCtl_advance` with the control state each writes; NOP advances the pc. -/
theorem controlInstructionsWriteTheirOneFlipFlop : Obligations.ControlInstructionsWriteTheirOneFlipFlop := by
  intro s
  refine ⟨?di, ?ei, ?hlt, ?nop⟩
  case di | ei | hlt => exact congrArg Host.Outcome.next (s.setCtl_advance _)
  case nop => exact congrArg Host.Outcome.next (s.advance_eq_following 1)

/-! ## What the environment presents (log 7) -/

theorem State.ioReadByte_of_presented {s : State} {v : Byte} (port : Byte) (h : s.now.ioRead = some v) :
    s.ioReadByte port = v := by
  simp only [State.ioReadByte, h]

theorem State.ioReadByte_of_unknown {s : State} (port : Byte) (h : s.now.ioRead = none) :
    s.ioReadByte port = Config.ioRead s.tick port := by
  simp only [State.ioReadByte, h]

theorem State.sidLevel_of_presented {s : State} {level : Bool} (h : s.now.sid = some level) : s.sidLevel = level := by
  simp only [State.sidLevel, h]

theorem State.sidLevel_of_unknown {s : State} (h : s.now.sid = none) : s.sidLevel = Config.sid s.tick := by
  simp only [State.sidLevel, h]

/-- Settles O42: IN's byte is `State.ioReadByte`; both forms append their event and advance the pc by two. -/
theorem inputAndOutputAreOneEventEach : Obligations.InputAndOutputAreOneEventEach := by
  intro s port
  refine ⟨⟨s.ioReadByte port, fun v => State.ioReadByte_of_presented port, State.ioReadByte_of_unknown port, ?input⟩,
    ?output⟩
  case input | output => exact congrArg Host.Outcome.next (State.advance_eq_following _ 2)

/-! ## RIM (rule R256) -/

/-- The bits of a word with one more bit below it, as a list from bit 0 upwards. -/
theorem getLsbD_append_ofBool {w : Nat} {x : BitVec w} {bits : List Bool} (b : Bool)
    (h : ∀ k, x.getLsbD k = bits.getD k false) (k : Nat) :
    (x ++ BitVec.ofBool b).getLsbD k = (b :: bits).getD k false := by
  cases k with
  | zero => exact BitVec.getLsbD_concat_zero
  | succ k => exact BitVec.getLsbD_concat_succ.trans (h k)

theorem getLsbD_ofBool_eq_getD (b : Bool) (k : Nat) : (BitVec.ofBool b).getLsbD k = [b].getD k false := by
  cases k with
  | zero => exact BitVec.getLsbD_ofBool b 0
  | succ k => exact BitVec.getLsbD_of_ge _ _ (Nat.le_add_left 1 k)

/-- RIM's word from bit 0 upwards. -/
theorem getLsbD_rimByte (s : State) (k : Nat) :
    (rimByte s).getLsbD k =
      [s.ctl.m55, s.ctl.m65, s.ctl.m75, if s.ctl.trapIeValid then s.ctl.trapIeValue else s.ctl.ie,
        s.now.lines.r55, s.now.lines.r65, s.ctl.r75, s.sidLevel].getD k false := by
  revert k
  iterate 7 apply getLsbD_append_ofBool
  exact getLsbD_ofBool_eq_getD s.sidLevel

/-- Settles O43: each bit of `rimByte` by `getLsbD_rimByte`, bit 7 by what is known of the SID level. -/
theorem rimReadsTheInterruptStatus : Obligations.RimReadsTheInterruptStatus := by
  intro s
  have hbit := getLsbD_rimByte s
  exact ⟨rimByte s, hbit 0, hbit 1, hbit 2, hbit 3, hbit 4, hbit 5, hbit 6,
    fun level h => (hbit 7).trans (State.sidLevel_of_presented h),
    fun h => (hbit 7).trans (State.sidLevel_of_unknown h),
    congrArg Host.Outcome.next (State.setCtl_advance (s.setReg .a (rimByte s)) _)⟩

/-! ## SIM (rule R257) -/

theorem getLsbD_eq_decide (r : Byte) (i : Nat) : r.getLsbD i = decide (r.toNat / 2 ^ i % 2 = 1) :=
  Nat.testBit_eq_decide_div_mod_eq

/-- Bits 2, 1 and 0 go to the masks under bit 3, the mask set enable. -/
theorem simControl_masks (a : Byte) (c : Control) :
    if a.toNat / 8 % 2 = 1 then
      (simControl a c).m75 = decide (a.toNat / 4 % 2 = 1) ∧ (simControl a c).m65 = decide (a.toNat / 2 % 2 = 1) ∧
        (simControl a c).m55 = decide (a.toNat % 2 = 1)
    else (simControl a c).m75 = c.m75 ∧ (simControl a c).m65 = c.m65 ∧ (simControl a c).m55 = c.m55 := by
  have henable : a.getLsbD 3 = decide (a.toNat / 8 % 2 = 1) := getLsbD_eq_decide a 3
  split
  case isTrue h =>
    rw [decide_eq_true h] at henable
    have hbit0 : a.getLsbD 0 = decide (a.toNat % 2 = 1) := by rw [getLsbD_eq_decide, Nat.pow_zero, Nat.div_one]
    exact ⟨(if_pos henable).trans (getLsbD_eq_decide a 2), (if_pos henable).trans (getLsbD_eq_decide a 1),
      (if_pos henable).trans hbit0⟩
  case isFalse h =>
    have hkeep : ¬ a.getLsbD 3 = true := by rwa [henable, decide_eq_true_iff]
    exact ⟨if_neg hkeep, if_neg hkeep, if_neg hkeep⟩

/-- Bit 4 resets the RST 7.5 latch. -/
theorem simControl_r75 (a : Byte) (c : Control) :
    (simControl a c).r75 = (c.r75 && decide (a.toNat / 16 % 2 = 0)) := by
  have hreset : a.getLsbD 4 = decide (a.toNat / 16 % 2 = 1) := getLsbD_eq_decide a 4
  rw [simControl, hreset]
  rcases Nat.mod_two_eq_zero_or_one (a.toNat / 16) with h | h <;> simp [h]

/-- Bit 7 goes to SOD under bit 6, the serial output enable. -/
theorem simControl_sod (a : Byte) (c : Control) :
    (simControl a c).sod = if a.toNat / 64 % 2 = 1 then decide (128 ≤ a.toNat) else c.sod := by
  have henable : a.getLsbD 6 = decide (a.toNat / 64 % 2 = 1) := getLsbD_eq_decide a 6
  have hbit7 : a.getLsbD 7 = decide (128 ≤ a.toNat) := sign_eq a
  rw [simControl, henable, hbit7]
  simp only [decide_eq_true_eq]

/-- Settles O44: the three parts of `simControl`; it copies the other control fields. -/
theorem simSetsMasksLatchAndSerialOutput : Obligations.SimSetsMasksLatchAndSerialOutput := by
  intro s
  exact ⟨simControl s.regs.a s.ctl, congrArg Host.Outcome.next (s.setCtl_advance _), simControl_masks _ _,
    simControl_r75 _ _, simControl_sod _ _, rfl, rfl, rfl, rfl, rfl⟩

end Sys2Proof.Machine
end

section
/-!
PROOFS. The data transfer family (44_data_transfer.md): loads and copies as updates of the whole state, stores through
the reads they leave, and the exchanges and complements that undo themselves (95_test_vectors.md section 4, property 4).
-/

namespace Sys2Proof

/-- An F3 opcode byte with its two operand bytes, low-order byte first (30_encoding.md rule R94). -/
theorem decode_low_high {op lo hi : Byte} {i : Word → Instr} (h : decodeOpcode op = some (.f3 i)) :
    decode [op, lo, hi] = .ok (i (wordOf hi lo), []) :=
  (decode_cons_eq_ok_iff op [lo, hi] [] _).mpr ⟨_, _, h, .f3 i lo hi, rfl⟩

namespace Machine

/-! ## Loads -/

/-- The next address, modulo 65536 (decision D3). -/
theorem ofNat_toNat_add_one (w : Word) : BitVec.ofNat 16 (w.toNat + 1) = w + 1 := by bv_omega

theorem Regs.setPair_bc_wordOf (g : Regs) (hi lo : Byte) :
    g.setPair .bc (wordOf hi lo) = { g with b := hi, c := lo } := by
  rw [Regs.setPair, hiByte_wordOf, loByte_wordOf]

theorem Regs.setPair_de_wordOf (g : Regs) (hi lo : Byte) :
    g.setPair .de (wordOf hi lo) = { g with d := hi, e := lo } := by
  rw [Regs.setPair, hiByte_wordOf, loByte_wordOf]

theorem Regs.setPair_hl_wordOf (g : Regs) (hi lo : Byte) :
    g.setPair .hl (wordOf hi lo) = { g with h := hi, l := lo } := by
  rw [Regs.setPair, hiByte_wordOf, loByte_wordOf]

/-- The state after a load of one register by an instruction of `n` bytes. -/
theorem State.setReg_advance (s : State) (r : Reg) (v : Byte) (n : Nat) :
    (s.setReg r v).advance (BitVec.ofNat 16 n) = { s.setReg r v with pc := s.following n } :=
  (s.setReg r v).advance_eq_following n

/-- The state after a load of one pair by an instruction of `n` bytes, `g` being the registers with the pair in them. -/
theorem State.setPair_advance (s : State) {pp : RegPair} {w : Word} {g : Regs} (hregs : s.regs.setPair pp w = g)
    (n : Nat) :
    (s.setPair pp w).advance (BitVec.ofNat 16 n) =
      { s with regs := g, sp := if pp = .sp then w else s.sp, pc := s.following n } := by
  subst hregs
  exact (s.setPair pp w).advance_eq_following n

/-- Settles O45: LDA is `State.setReg_advance`, LHLD and LXI are `State.setPair_advance` with a word of two bytes; the
bytes of each form by the opcode map. -/
theorem directLoadsAndImmediatePairs : Obligations.DirectLoadsAndImmediatePairs := by
  intro s addr
  refine ⟨?lda, ?lhld, fun lo hi => ⟨?lxiBc, ?lxiDe, ?lxiHl, ?lxiSp, decode_low_high rfl, decode_low_high rfl,
    decode_low_high rfl, decode_low_high rfl, ?ldaBytes, ?lhldBytes⟩⟩
  case lda => exact congrArg Host.Outcome.next (s.setReg_advance .a _ 3)
  case lhld =>
    rw [ofNat_toNat_add_one]
    exact congrArg Host.Outcome.next (s.setPair_advance (s.regs.setPair_hl_wordOf _ _) 3)
  case lxiBc => exact congrArg Host.Outcome.next (s.setPair_advance (s.regs.setPair_bc_wordOf hi lo) 3)
  case lxiDe => exact congrArg Host.Outcome.next (s.setPair_advance (s.regs.setPair_de_wordOf hi lo) 3)
  case lxiHl => exact congrArg Host.Outcome.next (s.setPair_advance (s.regs.setPair_hl_wordOf hi lo) 3)
  case lxiSp =>
    rw [← wordOf_eq_ofNat]
    exact congrArg Host.Outcome.next (s.setPair_advance (pp := .sp) rfl 3)
  case ldaBytes | lhldBytes =>
    rw [← wordOf_eq_ofNat]
    exact decode_low_high rfl

/-! ## Copies -/

/-- HL and DE with each other's bytes (rule R294). -/
theorem State.afterExec_xchg (s : State) :
    s.afterExec .xchg =
      { s with
        regs := { s.regs with h := s.regs.d, l := s.regs.e, d := s.regs.h, e := s.regs.l }
        pc := s.following 1 } := by
  have hregs : (s.regs.setPair .hl (wordOf s.regs.d s.regs.e)).setPair .de (wordOf s.regs.h s.regs.l) =
      { s.regs with h := s.regs.d, l := s.regs.e, d := s.regs.h, e := s.regs.l } := by
    rw [Regs.setPair_hl_wordOf, Regs.setPair_de_wordOf]
  exact (s.setPair .hl (s.getPair .de)).setPair_advance hregs 1

/-- Settles O46: the copies to a register are `State.setReg_advance`, the addresses words of two bytes; the encodings
register by register, the timing by the table. -/
theorem movesCopyWhatTheyName : Obligations.MovesCopyWhatTheyName := by
  refine ⟨fun s => ?effects, rfl, rfl, fun rd rs => ?movRR, fun rd => ?movRM, fun r d => ?mviR, rfl, rfl,
    fun taken => ⟨rfl, rfl, fun _ _ => rfl, fun _ => rfl, fun _ _ => rfl, rfl, rfl⟩⟩
  case movRR => cases rd with | _ => cases rs with | _ => rfl
  case movRM => cases rd with | _ => rfl
  case mviR => cases r with | _ => rfl
  case effects =>
    have hload (r : Reg) (v : Byte) (n : Nat) :=
      congrArg (Host.Outcome.next (φ := Fault) (ρ := Refusal)) (s.setReg_advance r v n)
    simp only [← wordOf_eq_ofNat]
    exact ⟨hload .a _ 1, hload .a _ 1, fun rd _ => hload rd _ 1, fun rd => hload rd _ 1, fun r d => hload r d 2,
      congrArg Host.Outcome.next ((s.setSp s.hl).advance_eq_following 1),
      (exec_eq_next_afterExec .xchg s).trans (congrArg _ s.afterExec_xchg)⟩

/-! ## Stores -/

/-- What an instruction of `n` bytes that stores `v` at `a` makes of `s` (rules R286, R289, R292, R293): `t`. -/
def State.StoresInto (s t : State) (a : Word) (v : Byte) (n : Nat) : Prop :=
  { t with mem := s.mem } = { s with pc := s.following n } ∧
  t.memRead a = s.byteAfterStore a v ∧ ∀ b : Word, b ≠ a → t.memRead b = s.memRead b

theorem State.storesInto_memWrite (s : State) (a : Word) (v : Byte) (n : Nat) :
    s.StoresInto ((s.memWrite a v).advance (BitVec.ofNat 16 n)) a v n := by
  refine ⟨?frame, s.memRead_memWrite a v, fun b => s.memRead_memWrite_ne a b v⟩
  rw [s.following_eq_add]
  rfl

/-- Settles O47: each form is `State.storesInto_memWrite` with its address as a word of two bytes; the encodings
register by register, the timing by the table. -/
theorem indirectStoresWriteOneByte : Obligations.IndirectStoresWriteOneByte := by
  refine ⟨fun s => ?effects, fun rs => ?movMR, fun d => rfl, rfl, rfl, fun pp => ?pairs,
    fun taken => ⟨fun _ => rfl, fun _ => rfl, rfl, rfl⟩⟩
  case effects =>
    simp only [← wordOf_eq_ofNat]
    exact ⟨fun rs => ⟨_, rfl, s.storesInto_memWrite s.hl _ 1⟩, fun d => ⟨_, rfl, s.storesInto_memWrite s.hl d 2⟩,
      ⟨_, rfl, s.storesInto_memWrite (s.getPair .bc) _ 1⟩, ⟨_, rfl, s.storesInto_memWrite (s.getPair .de) _ 1⟩⟩
  case movMR => cases rs with | _ => rfl
  case pairs => cases pp with | _ => decide

/-- Of two stores to different addresses, the second leaves the first's byte. -/
theorem State.memRead_first_store (s : State) {a b : Word} (v w : Byte) (h : a ≠ b) :
    ((s.memWrite a v).memWrite b w).memRead a = s.byteAfterStore a v :=
  (State.memRead_memWrite_ne _ _ _ _ h).trans (s.memRead_memWrite a v)

/-- Of two stores to different addresses, the first leaves the second's outcome. -/
theorem State.memRead_second_store (s : State) {a b : Word} (v w : Byte) (h : a ≠ b) :
    ((s.memWrite a v).memWrite b w).memRead b = s.byteAfterStore b w :=
  (State.memRead_memWrite _ _ _).trans (s.byteAfterStore_memWrite_ne v w h.symm)

/-- An address and the next one differ, also where the address wraps. -/
theorem ne_add_one (w : Word) : w ≠ w + 1 := by bv_omega

/-- Settles O48: STA stores one byte, SHLD two at addresses that never coincide. -/
theorem directStoresWriteTheirBytes : Obligations.DirectStoresWriteTheirBytes := by
  intro s addr
  rw [ofNat_toNat_add_one]
  refine ⟨⟨_, rfl, s.storesInto_memWrite addr _ 3⟩, _, rfl, ?frame, s.memRead_first_store _ _ (ne_add_one addr),
    s.memRead_second_store _ _ (ne_add_one addr),
    fun a ha hnext => s.memRead_two_stores _ _ (mt List.mem_pair.mp (not_or.mpr ⟨ha, hnext⟩))⟩
  rw [s.following_eq_add]
  rfl

/-! ## Exchanges and complements done twice -/

/-- Two instructions of one byte one after the other. -/
theorem State.following_following (s : State) : { s with pc := s.following 1 }.following 1 = s.following 2 := by
  rw [State.following_eq_add, State.following_eq_add, State.following_eq_add]
  exact BitVec.add_assoc s.pc 1 1

theorem State.afterExec_cma (s : State) :
    s.afterExec .cma = { s with regs := { s.regs with a := ~~~s.regs.a }, pc := s.following 1 } :=
  s.setReg_advance .a _ 1

theorem State.afterExec_cmc (s : State) :
    s.afterExec .cmc = { s with flags := { s.flags with cy := !s.flags.cy }, pc := s.following 1 } :=
  State.advance_eq_following _ 1

/-- XTHL leaves the stack top in HL: both bytes are read before either is written (45_stack.md rule R314). -/
theorem State.xthl_regs (s : State) :
    (s.afterExec .xthl).regs = { s.regs with h := s.memRead (s.sp + 1), l := s.memRead s.sp } := by
  rw [← Regs.setPair_hl_wordOf]
  rfl

theorem State.xthl_memRead_sp (s : State) (h : kindAt s.memMap s.sp = .readWrite) :
    (s.afterExec .xthl).memRead s.sp = s.regs.l :=
  (s.memRead_second_store s.regs.h s.regs.l (ne_add_one s.sp).symm).trans (if_pos h)

theorem State.xthl_memRead_sp_add_one (s : State) (h : kindAt s.memMap (s.sp + 1) = .readWrite) :
    (s.afterExec .xthl).memRead (s.sp + 1) = s.regs.h :=
  (s.memRead_first_store s.regs.h s.regs.l (ne_add_one s.sp).symm).trans (if_pos h)

theorem State.xthl_memRead_ne (s : State) {a : Word} (hlow : a ≠ s.sp) (hhigh : a ≠ s.sp + 1) :
    (s.afterExec .xthl).memRead a = s.memRead a :=
  s.memRead_two_stores s.regs.h s.regs.l (mt List.mem_pair.mp (not_or.mpr ⟨hhigh, hlow⟩))

/-- `u` is `s` two instructions of one byte further on, memory compared by its bytes (property 4). -/
def State.RestoredAfterTwo (s u : State) : Prop :=
  { u with mem := s.mem } = { s with pc := s.following 2 } ∧ ∀ a : Word, u.memRead a = s.memRead a

theorem State.restoredAfterTwo_of_eq {s u : State} (h : u = { s with pc := s.following 2 }) : s.RestoredAfterTwo u := by
  subst h
  exact ⟨rfl, fun a => rfl⟩

theorem State.xchg_xchg (s : State) : (s.afterExec .xchg).afterExec .xchg = { s with pc := s.following 2 } := by
  rw [← s.following_following, State.afterExec_xchg, State.afterExec_xchg]
  rfl

theorem State.cma_cma (s : State) : (s.afterExec .cma).afterExec .cma = { s with pc := s.following 2 } := by
  rw [← s.following_following, State.afterExec_cma, State.afterExec_cma, BitVec.not_not]
  rfl

theorem State.cmc_cmc (s : State) : (s.afterExec .cmc).afterExec .cmc = { s with pc := s.following 2 } := by
  rw [← s.following_following, State.afterExec_cmc, State.afterExec_cmc, Bool.not_not]
  rfl

section ReadWriteStack

variable {s : State} (hlow : kindAt s.memMap s.sp = .readWrite) (hhigh : kindAt s.memMap (s.sp + 1) = .readWrite)
include hlow hhigh

/-- The second XTHL reads back from the stack what the first took from HL. -/
theorem State.xthl_xthl_regs : ((s.afterExec .xthl).afterExec .xthl).regs = s.regs := by
  have hsp : (s.afterExec .xthl).sp = s.sp := rfl
  rw [State.xthl_regs, hsp, s.xthl_memRead_sp hlow, s.xthl_memRead_sp_add_one hhigh, s.xthl_regs]

/-- The second XTHL stores back what the first took from the stack. -/
theorem State.xthl_xthl_memRead (a : Word) : ((s.afterExec .xthl).afterExec .xthl).memRead a = s.memRead a := by
  by_cases hsp : a = s.sp
  · have hstored := (s.afterExec .xthl).xthl_memRead_sp hlow
    rw [s.xthl_regs] at hstored
    rw [hsp]
    exact hstored
  by_cases hnext : a = s.sp + 1
  · have hstored := (s.afterExec .xthl).xthl_memRead_sp_add_one hhigh
    rw [s.xthl_regs] at hstored
    rw [hnext]
    exact hstored
  · exact ((s.afterExec .xthl).xthl_memRead_ne hsp hnext).trans (s.xthl_memRead_ne hsp hnext)

theorem State.restoredAfterTwo_xthl : s.RestoredAfterTwo ((s.afterExec .xthl).afterExec .xthl) := by
  refine ⟨?frame, State.xthl_xthl_memRead hlow hhigh⟩
  calc { (s.afterExec .xthl).afterExec .xthl with mem := s.mem }
      = { (s.advance 1).advance 1 with regs := ((s.afterExec .xthl).afterExec .xthl).regs } := rfl
    _ = { s with pc := s.following 2 } := by rw [State.xthl_xthl_regs hlow hhigh, s.advance_one_twice]

end ReadWriteStack

/-- Settles O53: XCHG, CMA and CMC come back to the state itself; XTHL does by its registers and by its reads. -/
theorem exchangesAndComplementsUndoThemselves : Obligations.ExchangesAndComplementsUndoThemselves := by
  intro s hlow hhigh i hi
  refine ⟨_, _, exec_eq_next_afterExec _ _, exec_eq_next_afterExec _ _, ?_⟩
  obtain rfl | rfl | rfl | rfl : i = .xchg ∨ i = .xthl ∨ i = .cma ∨ i = .cmc := by simpa using hi
  · exact State.restoredAfterTwo_of_eq s.xchg_xchg
  · exact State.restoredAfterTwo_xthl hlow hhigh
  · exact State.restoredAfterTwo_of_eq s.cma_cma
  · exact State.restoredAfterTwo_of_eq s.cmc_cmc

end Machine

end Sys2Proof
end

section
/-!
PROOFS. The stack family (45_stack.md): the flag byte bit by bit; a push by the reads it leaves, whatever is behind the
stack; pops as updates of the whole state; XTHL; and the pop that undoes a push (95_test_vectors.md section 4, properties
2 and 3).
-/

namespace Sys2Proof.Machine

/-! ## The flag byte (10_state.md rule R36) -/

/-- The flag byte from bit 0 upwards. -/
theorem Flags.getLsbD_toByte (f : Flags) (u : BitVec 3) (k : Nat) :
    (f.toByte u).getLsbD k =
      [f.cy, u.getLsbD 0, f.p, u.getLsbD 1, f.ac, u.getLsbD 2, f.z, f.s].getD k false := by
  revert k
  iterate 7 apply getLsbD_append_ofBool
  exact getLsbD_ofBool_eq_getD f.s

theorem Flags.ofByte_eq_decide (v : Byte) :
    Flags.ofByte v =
      { s := decide (v.toNat / 128 % 2 = 1)
        z := decide (v.toNat / 64 % 2 = 1)
        ac := decide (v.toNat / 16 % 2 = 1)
        p := decide (v.toNat / 4 % 2 = 1)
        cy := decide (v.toNat % 2 = 1) } := by
  simp only [Flags.ofByte, getLsbD_eq_decide, Nat.pow_zero, Nat.div_one, Nat.reducePow]

/-! ## A and the flags as one word (rules R311, R313) -/

/-- The word PUSH PSW pushes: A and the flag byte with this step's draws. -/
def State.psw (s : State) : Word := wordOf s.regs.a (s.flags.toByte (Config.unusedFlagBits s.tick))

/-- A and the five flags from a word, as POP PSW loads them. -/
def State.loadPsw (s : State) (v : Word) : State := (s.setReg .a (hiByte v)).setFlags (Flags.ofByte (loByte v))

theorem State.afterExec_pushPsw (s : State) : s.afterExec .pushPsw = (s.push16 s.psw).advance 1 := rfl

theorem State.afterExec_popPsw (s : State) : s.afterExec .popPsw = (s.dropStack.loadPsw s.stackTop).advance 1 := rfl

theorem State.loadPsw_wordOf (s : State) (hi lo : Byte) :
    s.loadPsw (wordOf hi lo) = { s with regs := { s.regs with a := hi }, flags := Flags.ofByte lo } := by
  rw [State.loadPsw, hiByte_wordOf, loByte_wordOf]
  rfl

/-- A and the flags loaded back as they are change nothing, whatever the draws (10_state.md rule R36). -/
theorem State.loadPsw_psw (s : State) : s.loadPsw s.psw = s := by
  rw [State.psw, State.loadPsw_wordOf, Flags.ofByte_toByte]

/-! ## Pushes -/

/-- What a PUSH of `hi` and `lo` makes of `s` (rules R312, R313): `t`. -/
def State.PushesInto (s t : State) (hi lo : Byte) : Prop :=
  { t with mem := s.mem } = { s with sp := s.sp - 2, pc := s.following 1 } ∧
  t.memRead (s.sp - 1) = s.byteAfterStore (s.sp - 1) hi ∧
  t.memRead (s.sp - 2) = s.byteAfterStore (s.sp - 2) lo ∧
  ∀ a : Word, a ≠ s.sp - 1 → a ≠ s.sp - 2 → t.memRead a = s.memRead a

theorem State.pushesInto_push16 (s : State) (hi lo : Byte) :
    s.PushesInto ((s.push16 (wordOf hi lo)).advance 1) hi lo := by
  have hhigh := s.push16_memRead_sub_one (wordOf hi lo)
  have hlow := s.push16_memRead_sub_two (wordOf hi lo)
  rw [hiByte_wordOf] at hhigh
  rw [loByte_wordOf] at hlow
  refine ⟨?frame, hhigh, hlow, s.push16_memRead_ne _⟩
  rw [s.following_eq_add]
  rfl

/-- Settles O49: every form is `State.pushesInto_push16`; the flag byte's bits by `Flags.getLsbD_toByte`. -/
theorem pushStoresHighThenLow : Obligations.PushStoresHighThenLow := by
  intro s
  have hbit := s.flags.getLsbD_toByte (Config.unusedFlagBits s.tick)
  exact ⟨⟨_, _, rfl, rfl, s.pushesInto_push16 _ _⟩, ⟨_, _, rfl, rfl, s.pushesInto_push16 _ _⟩,
    ⟨_, _, rfl, rfl, s.pushesInto_push16 _ _⟩,
    ⟨_, _, rfl, ⟨hbit 7, hbit 6, hbit 4, hbit 2, hbit 0, hbit 5, hbit 3, hbit 1⟩, s.pushesInto_push16 _ _⟩⟩

/-! ## Pops -/

/-- Settles O50: POP Rp is `State.setPair_advance`, POP PSW `State.loadPsw_wordOf`, with the stack top as a word of two
bytes. -/
theorem popLoadsLowThenHigh : Obligations.PopLoadsLowThenHigh := by
  intro s
  refine ⟨?bc, ?de, ?hl, ?psw⟩
  case bc => exact congrArg Host.Outcome.next (s.dropStack.setPair_advance (s.regs.setPair_bc_wordOf _ _) 1)
  case de => exact congrArg Host.Outcome.next (s.dropStack.setPair_advance (s.regs.setPair_de_wordOf _ _) 1)
  case hl => exact congrArg Host.Outcome.next (s.dropStack.setPair_advance (s.regs.setPair_hl_wordOf _ _) 1)
  case psw =>
    rw [← Flags.ofByte_eq_decide, exec_eq_next_afterExec, s.afterExec_popPsw, State.stackTop, State.loadPsw_wordOf]
    exact congrArg Host.Outcome.next (State.advance_eq_following _ 1)

/-! ## XTHL -/

/-- Settles O51: the registers by `State.xthl_regs`, memory by two stores to addresses that never coincide. -/
theorem xthlExchangesHlWithTheStackTop : Obligations.XthlExchangesHlWithTheStackTop := by
  intro s
  refine ⟨_, exec_eq_next_afterExec .xthl s, ?frame, s.memRead_second_store _ _ (ne_add_one s.sp).symm,
    s.memRead_first_store _ _ (ne_add_one s.sp).symm, fun a => s.xthl_memRead_ne⟩
  calc { s.afterExec .xthl with mem := s.mem }
      = { s with regs := (s.afterExec .xthl).regs, pc := s.following 1 } :=
        State.advance_eq_following { s with regs := (s.afterExec .xthl).regs } 1
    _ = _ := by rw [s.xthl_regs]

/-! ## A push undone (95_test_vectors.md section 4, properties 2 and 3) -/

/-- But for memory, dropping a pushed word undoes the push. -/
theorem State.dropStack_push16 (s : State) (v : Word) : { (s.push16 v).dropStack with mem := s.mem } = s := by
  have hsp : s.sp - 2 + 2 = s.sp := BitVec.sub_add_cancel s.sp 2
  calc { (s.push16 v).dropStack with mem := s.mem }
      = { s with sp := s.sp - 2 + 2 } := rfl
    _ = s := by rw [hsp]

section ReadWriteStack

variable {s : State} (hhigh : kindAt s.memMap (s.sp - 1) = .readWrite) (hlow : kindAt s.memMap (s.sp - 2) = .readWrite)
include hhigh hlow

theorem State.popRp_pushRp (pp : RegPair) :
    { (s.afterExec (.pushRp pp)).afterExec (.popRp pp) with mem := s.mem } = { s with pc := s.following 2 } := by
  have htop : (s.afterExec (.pushRp pp)).stackTop = s.getPair pp := s.push16_stackTop _ hhigh hlow
  calc { (s.afterExec (.pushRp pp)).afterExec (.popRp pp) with mem := s.mem }
      = ((State.setPair { (s.push16 (s.getPair pp)).dropStack with mem := s.mem } pp
          (s.afterExec (.pushRp pp)).stackTop).advance 1).advance 1 := rfl
    _ = { s with pc := s.following 2 } := by
      rw [htop, s.dropStack_push16, s.setPair_getPair, s.advance_one_twice]

theorem State.popPsw_pushPsw :
    { (s.afterExec .pushPsw).afterExec .popPsw with mem := s.mem } = { s with pc := s.following 2 } := by
  have htop : ((s.push16 s.psw).advance 1).stackTop = s.psw := s.push16_stackTop _ hhigh hlow
  rw [State.afterExec_pushPsw, State.afterExec_popPsw, htop]
  calc { (((s.push16 s.psw).advance 1).dropStack.loadPsw s.psw).advance 1 with mem := s.mem }
      = ((State.loadPsw { (s.push16 s.psw).dropStack with mem := s.mem } s.psw).advance 1).advance 1 := rfl
    _ = { s with pc := s.following 2 } := by rw [s.dropStack_push16, s.loadPsw_psw, s.advance_one_twice]

end ReadWriteStack

/-- Settles O52: `State.popRp_pushRp` and `State.popPsw_pushPsw`. -/
theorem pushThenPopRestores : Obligations.PushThenPopRestores := by
  intro s hhigh hlow
  exact ⟨fun pp _ =>
      ⟨_, _, exec_eq_next_afterExec _ _, exec_eq_next_afterExec _ _, State.popRp_pushRp hhigh hlow pp⟩,
    _, _, exec_eq_next_afterExec _ _, exec_eq_next_afterExec _ _, State.popPsw_pushPsw hhigh hlow⟩

end Sys2Proof.Machine
end

section
/-!
PROOFS. Interrupts and the step cycle (60_exceptions.md): which source is selected, where its entry goes and what it
leaves; the step, kind by kind, and the control state each kind leaves.
-/

namespace Sys2Proof.Machine

/-! ## What no instruction touches -/

/-- The environment's inputs, the memory map and the step index of `t` are those of `s`. -/
def State.SameEnvironment (s t : State) : Prop :=
  t.inputs = s.inputs ∧ t.now = s.now ∧ t.tick = s.tick ∧ t.memMap = s.memMap

theorem State.sameEnvironment_jumpIf (s : State) (cond : Cond) (target : Word) :
    s.SameEnvironment (s.jumpIf cond target) := by
  unfold State.jumpIf; split <;> exact ⟨rfl, rfl, rfl, rfl⟩

theorem State.sameEnvironment_callIf (s : State) (cond : Cond) (target : Word) :
    s.SameEnvironment (s.callIf cond target) := by
  unfold State.callIf; split <;> exact ⟨rfl, rfl, rfl, rfl⟩

theorem State.sameEnvironment_retIf (s : State) (cond : Cond) : s.SameEnvironment (s.retIf cond) := by
  unfold State.retIf; split <;> exact ⟨rfl, rfl, rfl, rfl⟩

theorem State.sameEnvironment_afterExec (s : State) (i : Instr) : s.SameEnvironment (s.afterExec i) := by
  cases i with
  | jc | jnc | jz | jnz | jp | jm | jpe | jpo => exact s.sameEnvironment_jumpIf _ _
  | cc | cnc | cz | cnz | cp | cm | cpe | cpo => exact s.sameEnvironment_callIf _ _
  | rc | rnc | rz | rnz | rp | rm | rpe | rpo => exact s.sameEnvironment_retIf _
  | _ => exact ⟨rfl, rfl, rfl, rfl⟩

/-- Settles O9: every arm of `exec` completes, with the environment it began in. -/
theorem everyInstructionCompletes : Obligations.EveryInstructionCompletes :=
  fun i s => ⟨s.afterExec i, exec_eq_next_afterExec i s, s.sameEnvironment_afterExec i⟩

/-! ## The control state a step leaves -/

/-- The control state of the next state, kind of step by kind: a reset, an entry, an idle step, an instruction (rule
R330). -/
inductive State.StepControl (s : State) : Control → Prop where
  | reset (tick : Nat) (h : s.resets) : s.StepControl (resetControl tick)
  | entry (src : Source) (h : s.enters src) : s.StepControl (s.pastBoundary.ctl.acknowledge src)
  | idle : s.StepControl s.pastBoundary.ctl
  | instr (i : Instr) (h : s.executes i) : s.StepControl (s.pastBoundary.controlAfter i)

theorem stepControl_of_step {s t : State} (h : step s = .next t) : s.StepControl t.ctl := by
  obtain ⟨hreset, rfl⟩ | ⟨hreset, ⟨src, hselected, henter⟩ | ⟨-, -, rfl⟩ | ⟨hselected, hrunning, i, hfetch, hexec⟩⟩ :=
    step_cases s t h
  case inl => exact .reset _ hreset
  case inr.inl =>
    obtain ⟨target, -, rfl⟩ := State.enter_cases _ t src henter
    exact .entry src ⟨hreset, hselected⟩
  case inr.inr.inl => exact .idle
  case inr.inr.inr =>
    rw [eq_afterExec_of_exec hexec, State.afterExec_ctl]
    exact .instr i ⟨hreset, hselected, hrunning, hfetch⟩

/-- SIM alone writes the RST 7.5 latch, and only to clear it (43_machine_control_io.md rule R257). -/
theorem State.controlAfter_r75 (s : State) {i : Instr} (h : i = .sim → s.regs.a.getLsbD 4 = false) :
    (s.controlAfter i).r75 = s.ctl.r75 := by
  cases i with
  | sim =>
    have hkept : (if s.regs.a.getLsbD 4 then false else s.ctl.r75) = s.ctl.r75 := by rw [h rfl]; rfl
    exact hkept
  | _ => rfl

section StepControl

variable {s : State} {c : Control}

theorem State.StepControl.ie_changed (hc : s.StepControl c) (hne : c.ie ≠ s.ctl.ie) :
    s.resets ∨ (∃ src, s.enters src) ∨ s.executes .di ∨ s.executes .ei := by
  cases hc with
  | reset _ h => exact .inl h
  | entry src h => exact .inr (.inl ⟨src, h⟩)
  | idle => exact absurd rfl hne
  | instr i h =>
    cases i with
    | di => exact .inr (.inr (.inl h))
    | ei => exact .inr (.inr (.inr h))
    | _ => exact absurd rfl hne

theorem State.StepControl.masks_or_sod_changed (hc : s.StepControl c)
    (hne : c.m75 ≠ s.ctl.m75 ∨ c.m65 ≠ s.ctl.m65 ∨ c.m55 ≠ s.ctl.m55 ∨ c.sod ≠ s.ctl.sod) :
    s.resets ∨ s.executes .sim := by
  have hsame {d : Control} (h : d.m75 = s.ctl.m75 ∧ d.m65 = s.ctl.m65 ∧ d.m55 = s.ctl.m55 ∧ d.sod = s.ctl.sod) :
      ¬ (d.m75 ≠ s.ctl.m75 ∨ d.m65 ≠ s.ctl.m65 ∨ d.m55 ≠ s.ctl.m55 ∨ d.sod ≠ s.ctl.sod) := by
    simp [h]
  cases hc with
  | reset _ h => exact .inl h
  | entry | idle => exact absurd hne (hsame ⟨rfl, rfl, rfl, rfl⟩)
  | instr i h =>
    cases i with
    | sim => exact .inr h
    | _ => exact absurd hne (hsame ⟨rfl, rfl, rfl, rfl⟩)

/-- The RST 7.5 latch keeps its value and takes the boundary's edge, but for the three events that clear it (rule
R337). -/
theorem State.StepControl.r75_eq (hc : s.StepControl c) (hreset : ¬ s.resets) (hentry : ¬ s.enters .rst75)
    (hsim : ¬ (s.executes .sim ∧ s.regs.a.getLsbD 4 = true)) :
    c.r75 = (s.ctl.r75 || (s.inputs.headD StepInput.quiet).lines.r75Edge) := by
  cases hc with
  | reset _ h => exact absurd h hreset
  | entry src h =>
    have hsrc : src ≠ .rst75 := fun he => hentry (he ▸ h)
    exact if_neg hsrc
  | idle => rfl
  | instr i h =>
    refine s.pastBoundary.controlAfter_r75 fun hi => ?_
    subst hi
    exact Bool.eq_false_of_not_eq_true fun hbit => hsim ⟨h, hbit⟩

theorem State.StepControl.r75_changed (hc : s.StepControl c) (hne : c.r75 ≠ s.ctl.r75) :
    s.resets ∨ (s.inputs.headD StepInput.quiet).lines.r75Edge = true ∨ s.enters .rst75 ∨
      (s.executes .sim ∧ s.regs.a.getLsbD 4 = true) := by
  by_contra hnone
  obtain ⟨hreset, hedge, hentry, hsim⟩ := by simpa only [not_or] using hnone
  have hr75 := hc.r75_eq hreset hentry hsim
  rw [Bool.eq_false_of_not_eq_true hedge, Bool.or_false] at hr75
  exact hne hr75

theorem State.StepControl.trapIeValid_changed (hc : s.StepControl c) (hne : c.trapIeValid ≠ s.ctl.trapIeValid) :
    s.resets ∨ s.enters .trap ∨ s.executes .rim := by
  cases hc with
  | reset _ h => exact .inl h
  | entry src h =>
    cases src with
    | trap => exact .inr (.inl h)
    | rst75 | rst65 | rst55 | intr => exact absurd rfl hne
  | idle => exact absurd rfl hne
  | instr i h =>
    cases i with
    | rim => exact .inr (.inr h)
    | _ => exact absurd rfl hne

theorem State.StepControl.trapIeValue_changed (hc : s.StepControl c) (hne : c.trapIeValue ≠ s.ctl.trapIeValue) :
    s.resets ∨ s.enters .trap := by
  cases hc with
  | reset _ h => exact .inl h
  | entry src h =>
    cases src with
    | trap => exact .inr h
    | rst75 | rst65 | rst55 | intr => exact absurd rfl hne
  | idle => exact absurd rfl hne
  | instr i => cases i with | _ => exact absurd rfl hne

theorem State.StepControl.halted_changed (hc : s.StepControl c) (hne : c.halted ≠ s.ctl.halted) :
    s.resets ∨ (∃ src, s.enters src) ∨ s.executes .hlt := by
  cases hc with
  | reset _ h => exact .inl h
  | entry src h => exact .inr (.inl ⟨src, h⟩)
  | idle => exact absurd rfl hne
  | instr i h =>
    cases i with
    | hlt => exact .inr (.inr h)
    | _ => exact absurd rfl hne

/-- The boundary ends the delay, so a delay pending after a step was set in it (10_state.md rule R44). -/
theorem State.StepControl.executes_ei (hc : s.StepControl c) (hdelay : c.eiDelay = true) : s.executes .ei := by
  cases hc with
  | reset | entry | idle => exact absurd hdelay Bool.false_ne_true
  | instr i h =>
    by_cases hi : i = .ei
    · exact hi ▸ h
    · rw [State.controlAfter_eiDelay_of_ne_ei _ hi] at hdelay
      exact absurd hdelay Bool.false_ne_true

end StepControl

/-- Settles O15: field by field of the control state, over the four kinds of step. -/
theorem controlStateChangesOnlyByNamedEvents : Obligations.ControlStateChangesOnlyByNamedEvents := by
  intro s t hstep
  have hc := stepControl_of_step hstep
  exact ⟨hc.ie_changed, hc.masks_or_sod_changed, hc.r75_changed, hc.trapIeValid_changed, hc.trapIeValue_changed,
    hc.halted_changed, hc.executes_ei⟩

/-- Settles O24: none of the three events that clear the latch takes place, so it is the old latch or the edge. -/
theorem rst75EdgeStaysLatched : Obligations.Rst75EdgeStaysLatched := by
  intro s t hstep hreset hentry hsim hset
  rw [(stepControl_of_step hstep).r75_eq hreset hentry hsim, Bool.or_eq_true]
  exact hset.symm

/-! ## Selecting a source (rules R340, R346) -/

theorem find?_cons_eq_ite {α : Type} (p : α → Bool) (x : α) (xs : List α) :
    (x :: xs).find? p = if p x then some x else xs.find? p := by
  rw [List.find?_cons]
  cases p x <;> rfl

/-- The priority order as a chain of cases (rule R346). -/
theorem State.selected_eq_ite (s : State) :
    s.selected =
      if s.recognised .trap then some .trap
      else if s.recognised .rst75 then some .rst75
      else if s.recognised .rst65 then some .rst65
      else if s.recognised .rst55 then some .rst55
      else if s.recognised .intr then some .intr
      else none := by
  simp only [State.selected, sourcesByPriority, find?_cons_eq_ite, List.find?_nil]

/-- A maskable source is recognised with IE = 1, no delay pending, its request made and its mask, if it has one, 0 (rule
R340). -/
theorem State.recognised_maskable_iff (s : State) :
    (s.recognised .rst75 = true ↔
      (s.ctl.ie = true ∧ s.ctl.eiDelay = false) ∧ s.ctl.r75 = true ∧ s.ctl.m75 = false) ∧
    (s.recognised .rst65 = true ↔
      (s.ctl.ie = true ∧ s.ctl.eiDelay = false) ∧ s.now.lines.r65 = true ∧ s.ctl.m65 = false) ∧
    (s.recognised .rst55 = true ↔
      (s.ctl.ie = true ∧ s.ctl.eiDelay = false) ∧ s.now.lines.r55 = true ∧ s.ctl.m55 = false) ∧
    (s.recognised .intr = true ↔ (s.ctl.ie = true ∧ s.ctl.eiDelay = false) ∧ s.now.lines.intr = true) := by
  simp [State.recognised, and_assoc]

/-- Settles O18: with the maskable sources enabled the two chains of cases agree test by test; disabled, only TRAP is
recognised. -/
theorem selectedSourceIsTheHighestRecognised : Obligations.SelectedSourceIsTheHighestRecognised := by
  intro s
  obtain ⟨h75, h65, h55, hintr⟩ := s.recognised_maskable_iff
  have htrap : s.recognised .trap = s.now.lines.trap := rfl
  rw [s.selected_eq_ite, htrap]
  by_cases henabled : s.ctl.ie = true ∧ s.ctl.eiDelay = false
  · simp only [h75, h65, h55, hintr, henabled, and_self, true_and, if_true]
  · simp only [h75, h65, h55, hintr, henabled, false_and, if_false]

/-! ## The step -/

/-- Settles O6: by the formula of rule R340 no source is recognised, and the fetch is the decoder on the bytes at the
pc. -/
theorem stepRunsTheDecodedInstruction : Obligations.StepRunsTheDecodedInstruction := by
  intro s i rest input g s' hreset htrap h75 h65 h55 hintr hrunning hdecode _
  have hselected : s.takeInput.latchEdge.selected = none := by
    refine (State.selected_eq_none_iff _).mpr fun src => ?_
    cases src with
    | trap => exact htrap
    | rst75 => exact h75
    | rst65 => exact h65
    | rst55 => exact h55
    | intr => exact hintr
  exact step_of_executes ⟨hreset, hselected, hrunning, (State.fetch_eq_ok_iff _ i).mpr ⟨rest, hdecode⟩⟩

/-- Settles O19: no reset and a selected source are what makes a step an entry, halted or not. -/
theorem stepEntersTheSelectedInterrupt : Obligations.StepEntersTheSelectedInterrupt :=
  fun _ _ hreset hselected => step_of_enters ⟨hreset, hselected⟩

/-! ## Entering a source (rules R341, R347) -/

theorem intrTarget_encode_rst (n : BitVec 3) : intrTarget (encode (.rst n)) = some (restartAddress n) := by
  have hdecode : decode (encode (.rst n)) = .ok (.rst n, []) :=
    (decode_eq_ok_iff_encode _ _ _).mpr ⟨rfl, (List.append_nil _).symm⟩
  rw [intrTarget, hdecode]

theorem intrTarget_encode_call (addr : Word) : intrTarget (encode (.call addr)) = some addr := by
  have hdecode : decode (encode (.call addr)) = .ok (.call addr, []) :=
    (decode_eq_ok_iff_encode _ _ _).mpr ⟨rfl, (List.append_nil _).symm⟩
  rw [intrTarget, hdecode]

/-- RST n as the one byte 11nnn111 (30_encoding.md rule R98). -/
theorem intrTarget_rst_byte {n : Nat} (hn : n < 8) :
    intrTarget [BitVec.ofNat 8 (0xC7 + 8 * n)] = some (BitVec.ofNat 16 (8 * n)) := by
  have hnumber : (BitVec.ofNat 3 n).toNat = n := Nat.mod_eq_of_lt hn
  have htarget := intrTarget_encode_rst (BitVec.ofNat 3 n)
  rwa [encode_rst, restartAddress, hnumber] at htarget

/-- CALL as its three bytes, the low-order half of the address first. -/
theorem intrTarget_call_bytes {lo hi : Byte} {target : Word} (h : target.toNat = 256 * hi.toNat + lo.toNat) :
    intrTarget [0xCD#8, lo, hi] = some target := by
  obtain rfl : target = wordOf hi lo := BitVec.eq_of_toNat_eq (h.trans (wordOf_toNat hi lo).symm)
  have hbytes : encode (.call (wordOf hi lo)) = [0xCD#8, lo, hi] := by simp [encode, encodeF3]
  rw [← hbytes, intrTarget_encode_call]

/-- What an entry at `target` makes of `s` (rules R347, R348): `t`. -/
def State.EntersInto (s t : State) (src : Source) (target : Word) : Prop :=
  { t with mem := s.mem } =
    { s with
      sp := s.sp - 2
      pc := target
      ctl := { s.ctl with
        ie := false
        halted := false
        r75 := if src = .rst75 then false else s.ctl.r75
        trapIeValid := if src = .trap then true else s.ctl.trapIeValid
        trapIeValue := if src = .trap then s.ctl.ie else s.ctl.trapIeValue } } ∧
  t.memRead (s.sp - 1) = s.byteAfterStore (s.sp - 1) (BitVec.ofNat 8 (s.pc.toNat / 256)) ∧
  t.memRead (s.sp - 2) = s.byteAfterStore (s.sp - 2) (BitVec.ofNat 8 (s.pc.toNat % 256)) ∧
  ∀ a : Word, a ≠ s.sp - 1 → a ≠ s.sp - 2 → t.memRead a = s.memRead a

/-- An entry is the new control state, the pc pushed, and a jump. -/
theorem State.entersInto_of_entryAddress {s : State} {src : Source} {target : Word}
    (h : s.entryAddress src = some target) : ∃ t, s.enter src = .next t ∧ s.EntersInto t src target := by
  rw [State.enter, h]
  refine ⟨_, rfl, rfl, ?high, ?low, State.push16_memRead_ne (s.setCtl _) _⟩
  case high =>
    rw [← hiByte_eq_ofNat]
    exact State.push16_memRead_sub_one (s.setCtl _) s.pc
  case low =>
    rw [← loByte_eq_ofNat]
    exact State.push16_memRead_sub_two (s.setCtl _) s.pc

/-- Settles O20: the address of each source, then `State.entersInto_of_entryAddress`. -/
theorem interruptEntrySavesThePcAndNothingElse : Obligations.InterruptEntrySavesThePcAndNothingElse := by
  intro s src target hsource
  refine State.entersInto_of_entryAddress ?_
  obtain ⟨rfl, rfl⟩ | ⟨rfl, rfl⟩ | ⟨rfl, rfl⟩ | ⟨rfl, rfl⟩ | ⟨rfl, n, hn, hbytes, rfl⟩ | ⟨rfl, lo, hi, hbytes, htarget⟩ :=
    hsource
  case inl | inr.inl | inr.inr.inl | inr.inr.inr.inl => rfl
  case inr.inr.inr.inr.inl =>
    rw [State.entryAddress, hbytes]
    exact intrTarget_rst_byte hn
  case inr.inr.inr.inr.inr =>
    rw [State.entryAddress, hbytes]
    exact intrTarget_call_bytes htarget

/-- Settles O21: bytes that are the encoding of no RST n and of no CALL decode to neither. -/
theorem otherIntrAnswersAreRefused : Obligations.OtherIntrAnswersAreRefused := by
  intro s hrst hcall
  refine (s.enter_eq_refused_iff .intr _).mpr ⟨rfl, (intrTarget_eq_none_iff _).mpr ⟨?noRst, ?noCall⟩, rfl⟩
  case noRst => rwa [decodes_to_rst_iff]
  case noCall => rwa [decodes_to_call_iff]

end Sys2Proof.Machine
end

section
/-!
PROOFS. The reset step (70_reset_and_hazards.md rules R380, R383): the first line of the step cycle, before any source is
selected and any instruction fetched.
-/

namespace Sys2Proof.Machine

/-- Settles O17: a presented reset decides the step whatever else the state holds (`step_of_resets`); past it the pc and
the control state are fixed values, and what reset does not write is as `takeInput` left it. -/
theorem resetStepComesBeforeEverything : Obligations.ResetStepComesBeforeEverything := by
  intro s hreset
  refine ⟨s.takeInput.applyReset, step_of_resets hreset, State.applyReset_pc _, ?controlAndFrame⟩
  case controlAndFrame =>
    simp only [State.applyReset_ctl, resetControl, State.applyReset_mem, State.applyReset_memMap,
      State.applyReset_trace, State.applyReset_inputs, State.takeInput_mem, State.takeInput_memMap,
      State.takeInput_trace, State.takeInput_inputs, and_self]

end Sys2Proof.Machine
end
